-- ==== Sys2Proof/Word.lean ====
section
/-! DEFINITION. The widths of the machine: 32-bit words, 6-bit opcode numbers, 74-bit decoded instruction words. -/

namespace Sys2Proof

/-- A `u32` (R6): the width of every backing register, stack entry, program counter, immediate and interrupt id (R5). -/
abbrev Word := BitVec 32

/-- An opcode number, the field OPC (R71, R76). -/
abbrev Opc := BitVec 6

/-- A decoded instruction word, DIW (R71). -/
abbrev Diw := BitVec 74

end Sys2Proof
end

