-- ==== Sys2Proof/Syntax.lean ====
section
/-! DEFINITION. The instructions of SLAVE16-CORE and the register ids (R21, R70, R76). An instruction keeps its operands
as the instruction word holds them: the checks of R105 belong to its execution, because an instruction whose opcode matches
but whose operands are wrong is still that instruction and raises its own error (log 10). -/

namespace Sys2Proof

/-- The eight register families, in the order of R20 (EAX is index 0, EBP index 7). -/
inductive Family where
  | eax | ebx | ecx | edx | esi | edi | esp | ebp
  deriving DecidableEq, Repr

/-- The four kinds of view of a family (R21). -/
inductive View where
  /-- bits [31:0] -/
  | full
  /-- bits [15:0] -/
  | low16
  /-- bits [15:8] -/
  | high8
  /-- bits [7:0] -/
  | low8
  deriving DecidableEq, Repr

/-- The 24 architectural register ids of R21. -/
inductive RegId where
  | eax | ax | ah | al
  | ebx | bx | bh | bl
  | ecx | cx | ch | cl
  | edx | dx | dh | dl
  | esi | si
  | edi | di
  | esp | sp
  | ebp | bp
  deriving DecidableEq, Repr

/-- One operand slot as the word holds it (R73): an immediate pattern (R74) or a register CODE, which need not resolve (R75). -/
inductive Operand where
  | imm (value : Word)
  | reg (code : Word)
  deriving DecidableEq, Repr

/-- The operands of an instruction by the count NOPS (R72): 0, 1, 2, or 3 for "three or more", of which the word holds the
first two. Slots at or beyond NOPS are not part of the instruction (R80). -/
inductive Operands where
  | zero
  | one (a : Operand)
  | two (a b : Operand)
  | many (a b : Operand)
  deriving DecidableEq, Repr

/-- The instructions, one constructor per row of the opcode table. `invalid` carries its opcode number: INVALID is 0x3F, and
the unassigned numbers 0x33 to 0x3E behave exactly as it does (R77, R267). -/
inductive Instr where
  /-- MOV, OPC 0x00 (R140). -/
  | mov (o : Operands)
  /-- ADD, OPC 0x01 (R150). -/
  | add (o : Operands)
  /-- SUB, OPC 0x02 (R151). -/
  | sub (o : Operands)
  /-- MUL, OPC 0x03 (R152). -/
  | mul (o : Operands)
  /-- DIV, OPC 0x04 (R153). -/
  | div (o : Operands)
  /-- INC, OPC 0x05 (R154). -/
  | inc (o : Operands)
  /-- DEC, OPC 0x06 (R155). -/
  | dec (o : Operands)
  /-- AND, OPC 0x07 (R180). -/
  | and (o : Operands)
  /-- OR, OPC 0x08 (R181). -/
  | or (o : Operands)
  /-- XOR, OPC 0x09 (R182). -/
  | xor (o : Operands)
  /-- NOT, OPC 0x0A (R183). -/
  | not (o : Operands)
  /-- SAL, OPC 0x0B (R191). -/
  | sal (o : Operands)
  /-- SAR, OPC 0x0C (R193). -/
  | sar (o : Operands)
  /-- SHL, OPC 0x0D (R192). -/
  | shl (o : Operands)
  /-- SHR, OPC 0x0E (R194). -/
  | shr (o : Operands)
  /-- PUSH, OPC 0x0F (R210). -/
  | push (o : Operands)
  /-- POP, OPC 0x10 (R211). -/
  | pop (o : Operands)
  /-- JMP, OPC 0x11 (R222). -/
  | jmp (o : Operands)
  /-- JE, OPC 0x12 (R224). -/
  | je (o : Operands)
  /-- JZ, OPC 0x13 (R225). -/
  | jz (o : Operands)
  /-- JNE, OPC 0x14 (R226). -/
  | jne (o : Operands)
  /-- JNZ, OPC 0x15 (R227). -/
  | jnz (o : Operands)
  /-- JA, OPC 0x16 (R228). -/
  | ja (o : Operands)
  /-- JNBE, OPC 0x17 (R229). -/
  | jnbe (o : Operands)
  /-- JAE, OPC 0x18 (R230). -/
  | jae (o : Operands)
  /-- JNB, OPC 0x19 (R231). -/
  | jnb (o : Operands)
  /-- JB, OPC 0x1A (R232). -/
  | jb (o : Operands)
  /-- JNAE, OPC 0x1B (R233). -/
  | jnae (o : Operands)
  /-- JBE, OPC 0x1C (R234). -/
  | jbe (o : Operands)
  /-- JNA, OPC 0x1D (R235). -/
  | jna (o : Operands)
  /-- JG, OPC 0x1E (R236). -/
  | jg (o : Operands)
  /-- JNLE, OPC 0x1F (R237). -/
  | jnle (o : Operands)
  /-- JGE, OPC 0x20 (R238). -/
  | jge (o : Operands)
  /-- JNL, OPC 0x21 (R239). -/
  | jnl (o : Operands)
  /-- JL, OPC 0x22 (R240). -/
  | jl (o : Operands)
  /-- JNGE, OPC 0x23 (R241). -/
  | jnge (o : Operands)
  /-- JLE, OPC 0x24 (R242). -/
  | jle (o : Operands)
  /-- JNG, OPC 0x25 (R243). -/
  | jng (o : Operands)
  /-- JC, OPC 0x26 (R244). -/
  | jc (o : Operands)
  /-- JNC, OPC 0x27 (R245). -/
  | jnc (o : Operands)
  /-- JO, OPC 0x28 (R246). -/
  | jo (o : Operands)
  /-- JNO, OPC 0x29 (R247). -/
  | jno (o : Operands)
  /-- JS, OPC 0x2A (R248). -/
  | js (o : Operands)
  /-- JNS, OPC 0x2B (R249). -/
  | jns (o : Operands)
  /-- JP, OPC 0x2C (R250). -/
  | jp (o : Operands)
  /-- JPE, OPC 0x2D (R251). -/
  | jpe (o : Operands)
  /-- JNP, OPC 0x2E (R252). -/
  | jnp (o : Operands)
  /-- JPO, OPC 0x2F (R253). -/
  | jpo (o : Operands)
  /-- CMP, OPC 0x30 (R260). -/
  | cmp (o : Operands)
  /-- INT, OPC 0x31 (R265). -/
  | int (o : Operands)
  /-- NOP, OPC 0x32 (R266). -/
  | nop (o : Operands)
  /-- INVALID, OPC 0x3F, and the unassigned numbers 0x33 to 0x3E (R77, R267). -/
  | invalid (opc : Opc)
  deriving DecidableEq, Repr

end Sys2Proof
end

