-- ==== Sys2Proof/Decode.lean ====
section
/-! DEFINITION. The decoded instruction word: its fields, the register codes, the opcode numbers, the decoder, the encoder,
the packing of a decoded record at the boundary, and the operand signatures (30_encoding.md R70 to R81, R88). -/

namespace Sys2Proof

/-! ## Fields of the word (R71) -/

/-- OPC, bits [5:0]. -/
def diwOpc (d : Diw) : Opc := d.extractLsb' 0 6

/-- NOPS, bits [7:6]. -/
def diwNops (d : Diw) : BitVec 2 := d.extractLsb' 6 2

/-- T0, bit [8]: 1 when operand 0 is a register. -/
def diwT0 (d : Diw) : Bool := d.getLsbD 8

/-- T1, bit [9]: 1 when operand 1 is a register. -/
def diwT1 (d : Diw) : Bool := d.getLsbD 9

/-- V0, bits [41:10]. -/
def diwV0 (d : Diw) : Word := d.extractLsb' 10 32

/-- V1, bits [73:42]. -/
def diwV1 (d : Diw) : Word := d.extractLsb' 42 32

/-- The word with the given fields (R71): `V1` in the high bits, `OPC` in the low ones. -/
def packFields (opc : Opc) (nops : BitVec 2) (t0 t1 : Bool) (v0 v1 : Word) : Diw :=
  v1 ++ v0 ++ BitVec.ofBool t1 ++ BitVec.ofBool t0 ++ nops ++ opc

/-! ## Register codes (R75) -/

/-- The register id a code names; `none` for an unresolved code. The 24 resolved codes are those of R75's table. -/
def resolveCode (code : Word) : Option RegId :=
  match code.toNat with
  | 0x00 => some .eax
  | 0x01 => some .ax
  | 0x02 => some .ah
  | 0x03 => some .al
  | 0x04 => some .ebx
  | 0x05 => some .bx
  | 0x06 => some .bh
  | 0x07 => some .bl
  | 0x08 => some .ecx
  | 0x09 => some .cx
  | 0x0A => some .ch
  | 0x0B => some .cl
  | 0x0C => some .edx
  | 0x0D => some .dx
  | 0x0E => some .dh
  | 0x0F => some .dl
  | 0x10 => some .esi
  | 0x11 => some .si
  | 0x14 => some .edi
  | 0x15 => some .di
  | 0x18 => some .esp
  | 0x19 => some .sp
  | 0x1C => some .ebp
  | 0x1D => some .bp
  | _ => none

/-- The code of a register id (R75: `4 f + v`). -/
def regCode (id : RegId) : Word :=
  match id with
  | .eax => 0x00
  | .ax => 0x01
  | .ah => 0x02
  | .al => 0x03
  | .ebx => 0x04
  | .bx => 0x05
  | .bh => 0x06
  | .bl => 0x07
  | .ecx => 0x08
  | .cx => 0x09
  | .ch => 0x0A
  | .cl => 0x0B
  | .edx => 0x0C
  | .dx => 0x0D
  | .dh => 0x0E
  | .dl => 0x0F
  | .esi => 0x10
  | .si => 0x11
  | .edi => 0x14
  | .di => 0x15
  | .esp => 0x18
  | .sp => 0x19
  | .ebp => 0x1C
  | .bp => 0x1D

/-! ## Opcode numbers (R76, R77) -/

/-- The instruction an opcode number names, on the given operands. INVALID and the unassigned numbers examine no operand
(R77, R267). -/
def decodeOpcode (opc : Opc) (o : Operands) : Instr :=
  match opc.toNat with
  | 0x00 => .mov o
  | 0x01 => .add o
  | 0x02 => .sub o
  | 0x03 => .mul o
  | 0x04 => .div o
  | 0x05 => .inc o
  | 0x06 => .dec o
  | 0x07 => .and o
  | 0x08 => .or o
  | 0x09 => .xor o
  | 0x0A => .not o
  | 0x0B => .sal o
  | 0x0C => .sar o
  | 0x0D => .shl o
  | 0x0E => .shr o
  | 0x0F => .push o
  | 0x10 => .pop o
  | 0x11 => .jmp o
  | 0x12 => .je o
  | 0x13 => .jz o
  | 0x14 => .jne o
  | 0x15 => .jnz o
  | 0x16 => .ja o
  | 0x17 => .jnbe o
  | 0x18 => .jae o
  | 0x19 => .jnb o
  | 0x1A => .jb o
  | 0x1B => .jnae o
  | 0x1C => .jbe o
  | 0x1D => .jna o
  | 0x1E => .jg o
  | 0x1F => .jnle o
  | 0x20 => .jge o
  | 0x21 => .jnl o
  | 0x22 => .jl o
  | 0x23 => .jnge o
  | 0x24 => .jle o
  | 0x25 => .jng o
  | 0x26 => .jc o
  | 0x27 => .jnc o
  | 0x28 => .jo o
  | 0x29 => .jno o
  | 0x2A => .js o
  | 0x2B => .jns o
  | 0x2C => .jp o
  | 0x2D => .jpe o
  | 0x2E => .jnp o
  | 0x2F => .jpo o
  | 0x30 => .cmp o
  | 0x31 => .int o
  | 0x32 => .nop o
  | _ => .invalid opc

/-- The opcode number of an instruction (R76). -/
def opcodeNumber (i : Instr) : Opc :=
  match i with
  | .mov _ => 0x00
  | .add _ => 0x01
  | .sub _ => 0x02
  | .mul _ => 0x03
  | .div _ => 0x04
  | .inc _ => 0x05
  | .dec _ => 0x06
  | .and _ => 0x07
  | .or _ => 0x08
  | .xor _ => 0x09
  | .not _ => 0x0A
  | .sal _ => 0x0B
  | .sar _ => 0x0C
  | .shl _ => 0x0D
  | .shr _ => 0x0E
  | .push _ => 0x0F
  | .pop _ => 0x10
  | .jmp _ => 0x11
  | .je _ => 0x12
  | .jz _ => 0x13
  | .jne _ => 0x14
  | .jnz _ => 0x15
  | .ja _ => 0x16
  | .jnbe _ => 0x17
  | .jae _ => 0x18
  | .jnb _ => 0x19
  | .jb _ => 0x1A
  | .jnae _ => 0x1B
  | .jbe _ => 0x1C
  | .jna _ => 0x1D
  | .jg _ => 0x1E
  | .jnle _ => 0x1F
  | .jge _ => 0x20
  | .jnl _ => 0x21
  | .jl _ => 0x22
  | .jnge _ => 0x23
  | .jle _ => 0x24
  | .jng _ => 0x25
  | .jc _ => 0x26
  | .jnc _ => 0x27
  | .jo _ => 0x28
  | .jno _ => 0x29
  | .js _ => 0x2A
  | .jns _ => 0x2B
  | .jp _ => 0x2C
  | .jpe _ => 0x2D
  | .jnp _ => 0x2E
  | .jpo _ => 0x2F
  | .cmp _ => 0x30
  | .int _ => 0x31
  | .nop _ => 0x32
  | .invalid opc => opc

/-- The operands of an instruction; INVALID examines none (R267). -/
def operandsOf (i : Instr) : Operands :=
  match i with
  | .mov o => o
  | .add o => o
  | .sub o => o
  | .mul o => o
  | .div o => o
  | .inc o => o
  | .dec o => o
  | .and o => o
  | .or o => o
  | .xor o => o
  | .not o => o
  | .sal o => o
  | .sar o => o
  | .shl o => o
  | .shr o => o
  | .push o => o
  | .pop o => o
  | .jmp o => o
  | .je o => o
  | .jz o => o
  | .jne o => o
  | .jnz o => o
  | .ja o => o
  | .jnbe o => o
  | .jae o => o
  | .jnb o => o
  | .jb o => o
  | .jnae o => o
  | .jbe o => o
  | .jna o => o
  | .jg o => o
  | .jnle o => o
  | .jge o => o
  | .jnl o => o
  | .jl o => o
  | .jnge o => o
  | .jle o => o
  | .jng o => o
  | .jc o => o
  | .jnc o => o
  | .jo o => o
  | .jno o => o
  | .js o => o
  | .jns o => o
  | .jp o => o
  | .jpe o => o
  | .jnp o => o
  | .jpo o => o
  | .cmp o => o
  | .int o => o
  | .nop o => o
  | .invalid _ => .zero

/-! ## The decoder -/

/-- One operand slot from its kind bit and value bits (R73). -/
def decodeOperand (isReg : Bool) (v : Word) : Operand :=
  if isReg then .reg v else .imm v

/-- The operands of a word: slots at or beyond NOPS are not read (R72, R80). -/
def decodeOperands (d : Diw) : Operands :=
  match (diwNops d).toNat with
  | 0 => .zero
  | 1 => .one (decodeOperand (diwT0 d) (diwV0 d))
  | 2 => .two (decodeOperand (diwT0 d) (diwV0 d)) (decodeOperand (diwT1 d) (diwV1 d))
  | _ => .many (decodeOperand (diwT0 d) (diwV0 d)) (decodeOperand (diwT1 d) (diwV1 d))

/-- The instruction a word stands for. Every 74-bit word is one (R81, R112: every OPC has exactly one outcome). -/
def decode (d : Diw) : Instr := decodeOpcode (diwOpc d) (decodeOperands d)

/-- Why a number is not an instruction word. -/
inductive DecodeReject where
  /-- It has a bit above bit 73, so it is no 74-bit word (R71, R82). -/
  | widerThanDiw
  deriving DecidableEq, Repr

/-- The decoder on any number: a number of at most 74 bits is a word; a wider one is rejected by name. -/
def decodeNat (w : Nat) : Except DecodeReject Instr :=
  if w < 2 ^ 74 then .ok (decode (BitVec.ofNat 74 w)) else .error .widerThanDiw

/-- What the decoder reads from an instruction of `nbits` bits `w`, every bit above them zero. -/
def decodeTableWord (nbits w : Nat) : Option Instr :=
  match decodeNat (w % 2 ^ nbits) with
  | .ok i => some i
  | .error _ => none

/-! ## The encoder (R71 to R76, R80) -/

/-- The kind bit of an operand (R73). -/
def operandIsReg (a : Operand) : Bool :=
  match a with
  | .imm _ => false
  | .reg _ => true

/-- The value bits of an operand (R74, R75). -/
def operandBits (a : Operand) : Word :=
  match a with
  | .imm v => v
  | .reg c => c

/-- The word with this opcode number and these operands; the bits of absent slots are zero (R80). -/
def encodeFields (opc : Opc) (o : Operands) : Diw :=
  match o with
  | .zero => packFields opc 0 false false 0 0
  | .one a => packFields opc 1 (operandIsReg a) false (operandBits a) 0
  | .two a b => packFields opc 2 (operandIsReg a) (operandIsReg b) (operandBits a) (operandBits b)
  | .many a b => packFields opc 3 (operandIsReg a) (operandIsReg b) (operandBits a) (operandBits b)

/-- The word of an instruction. -/
def encode (i : Instr) : Diw := encodeFields (opcodeNumber i) (operandsOf i)

/-! ## The boundary with the external decoder (R70, R72, R73, R88) -/

/-- An operand as the external decoder produces it. A floating-point literal exists at decode time only (R73). -/
inductive RecordOperand where
  | imm (value : Word)
  | reg (code : Word)
  | float
  deriving DecidableEq, Repr

/-- A decoded record (opcode, ordered list of operands), R70. The decoder gives an unknown mnemonic the opcode 0x3F and an
unknown register the code 0xFFFFFFFF (R75, R88). -/
structure InstrRecord where
  opc : Opc
  operands : List RecordOperand
  deriving DecidableEq, Repr

/-- The operand slot of a record's operand; a floating-point literal has none (R73). -/
def packOperand (a : RecordOperand) : Option Operand :=
  match a with
  | .imm v => some (.imm v)
  | .reg c => some (.reg c)
  | .float => none

/-- The operands of a record with the count saturated at 3 (R72), or `none` when one is a floating-point literal (R73). -/
def packOperands (l : List RecordOperand) : Option Operands :=
  match l.mapM packOperand with
  | none => none
  | some [] => some .zero
  | some [a] => some (.one a)
  | some [a, b] => some (.two a b)
  | some (a :: b :: _) => some (.many a b)

/-- The word the core receives for a record; `none` for a record with a floating-point operand, which is refused (R73). -/
def packRecord (r : InstrRecord) : Option Diw :=
  (packOperands r.operands).map (encodeFields r.opc)

/-! ## Operand signatures and the checks before execution (R78, R105) -/

/-- What a signature slot allows (R78). -/
inductive SlotKind where
  /-- a register id only -/
  | reg
  /-- an immediate only -/
  | imm
  /-- either -/
  | regImm
  deriving DecidableEq, Repr

/-- An error of the checks before execution other than DecodeAmbiguity, with the detail R281 gives it. -/
inductive OperandError where
  /-- OperandArity, with the NOPS value. -/
  | arity (nops : Nat)
  /-- OperandKind, with the slot index. -/
  | kind (slot : Nat)
  /-- RegisterError, with the slot index. -/
  | register (slot : Nat)
  deriving DecidableEq, Repr

/-- The operand signature of an instruction (R78); INVALID has none. -/
def signatureOf (i : Instr) : Option (List SlotKind) :=
  match i with
  | .mov _ => some [.reg, .regImm]
  | .add _ => some [.reg, .regImm]
  | .sub _ => some [.reg, .regImm]
  | .mul _ => some [.regImm]
  | .div _ => some [.regImm]
  | .inc _ => some [.reg]
  | .dec _ => some [.reg]
  | .and _ => some [.reg, .regImm]
  | .or _ => some [.reg, .regImm]
  | .xor _ => some [.reg, .regImm]
  | .not _ => some [.reg]
  | .sal _ => some [.reg, .regImm]
  | .sar _ => some [.reg, .regImm]
  | .shl _ => some [.reg, .regImm]
  | .shr _ => some [.reg, .regImm]
  | .push _ => some [.regImm]
  | .pop _ => some [.reg]
  | .jmp _ => some [.regImm]
  | .je _ => some [.regImm]
  | .jz _ => some [.regImm]
  | .jne _ => some [.regImm]
  | .jnz _ => some [.regImm]
  | .ja _ => some [.regImm]
  | .jnbe _ => some [.regImm]
  | .jae _ => some [.regImm]
  | .jnb _ => some [.regImm]
  | .jb _ => some [.regImm]
  | .jnae _ => some [.regImm]
  | .jbe _ => some [.regImm]
  | .jna _ => some [.regImm]
  | .jg _ => some [.regImm]
  | .jnle _ => some [.regImm]
  | .jge _ => some [.regImm]
  | .jnl _ => some [.regImm]
  | .jl _ => some [.regImm]
  | .jnge _ => some [.regImm]
  | .jle _ => some [.regImm]
  | .jng _ => some [.regImm]
  | .jc _ => some [.regImm]
  | .jnc _ => some [.regImm]
  | .jo _ => some [.regImm]
  | .jno _ => some [.regImm]
  | .js _ => some [.regImm]
  | .jns _ => some [.regImm]
  | .jp _ => some [.regImm]
  | .jpe _ => some [.regImm]
  | .jnp _ => some [.regImm]
  | .jpo _ => some [.regImm]
  | .cmp _ => some [.reg, .regImm]
  | .int _ => some [.imm]
  | .nop _ => some []
  | .invalid _ => none

/-- The operands present, in order. -/
def presentOperands (o : Operands) : List Operand :=
  match o with
  | .zero => []
  | .one a => [a]
  | .two a b => [a, b]
  | .many a b => [a, b]

/-- The NOPS value (R72). -/
def operandCount (o : Operands) : Nat :=
  match o with
  | .zero => 0
  | .one _ => 1
  | .two _ _ => 2
  | .many _ _ => 3

/-- Whether a slot allows an operand's kind (R78). -/
def kindAllowed (k : SlotKind) (a : Operand) : Bool :=
  match k, a with
  | .reg, .reg _ => true
  | .imm, .imm _ => true
  | .regImm, _ => true
  | .reg, .imm _ => false
  | .imm, .reg _ => false

/-- Whether an operand is no register with an unresolved code (R75). -/
def codeResolved (a : Operand) : Bool :=
  match a with
  | .imm _ => true
  | .reg c => (resolveCode c).isSome

/-- The first slot, counted from `k`, whose kind the signature does not allow. -/
def firstBadKind (k : Nat) (sig : List SlotKind) (l : List Operand) : Option Nat :=
  match sig, l with
  | t :: sig, a :: l => if kindAllowed t a then firstBadKind (k + 1) sig l else some k
  | _, _ => none

/-- The first slot, counted from `k`, that holds an unresolved register code. -/
def firstUnresolved (k : Nat) (l : List Operand) : Option Nat :=
  match l with
  | a :: l => if codeResolved a then firstUnresolved (k + 1) l else some k
  | [] => none

/-- The checks of R105 in their order: the count, then the kinds, then the register codes; the first error found. -/
def checkOperands (sig : List SlotKind) (o : Operands) : Option OperandError :=
  if operandCount o ≠ sig.length then some (.arity (operandCount o))
  else match firstBadKind 0 sig (presentOperands o) with
    | some k => some (.kind k)
    | none => (firstUnresolved 0 (presentOperands o)).map .register

end Sys2Proof
end

