-- ==== Sys2Proof/Machine/Bank.lean ====
section
/-! DEFINITION. The register bank as data (R20), and what passes between the core and a host handler during INT (R294,
R298). -/

namespace Sys2Proof.Machine

/-- The eight backing words, one per family; no family shares storage with another (R20). -/
structure RegBank where
  eax : Word
  ebx : Word
  ecx : Word
  edx : Word
  esi : Word
  edi : Word
  esp : Word
  ebp : Word
  deriving DecidableEq, Repr

/-- The identity of a host handler (R33). Nothing but equality of handles matters (log 12). -/
abbrev Handle := Nat

/-- An interrupt event: the id and a read-only copy of the eight backing words (R298). -/
structure InterruptEvent where
  id : Word
  view : RegBank
  deriving DecidableEq, Repr

/-- What a handler that returns asks for: register writes `(code, value)` in order, and whether it failed (R294). -/
structure HandlerResponse where
  writes : List (Word × Word)
  failed : Bool
  deriving DecidableEq, Repr

/-- The outcome of calling a handler: it returns a response (R294), or it never returns (R299). -/
inductive HandlerAnswer where
  | returns (r : HandlerResponse)
  | neverReturns
  deriving DecidableEq, Repr, Inhabited

end Sys2Proof.Machine
end

