-- ==== Sys2Proof/Machine/State.lean ====
section
/-! DEFINITION. The state of the machine (10_state.md), the errors it reports, the host's calls, the reasons a step can stop,
and the state at creation (R36). -/

namespace Sys2Proof.Machine

/-- The six flags (R26). -/
structure FlagBits where
  cf : Bool
  pf : Bool
  af : Bool
  zf : Bool
  sf : Bool
  of : Bool
  deriving DecidableEq, Repr

/-- The nine error kinds of R280. -/
inductive ErrorKind where
  | decodeAmbiguity
  | operandArity
  | operandKind
  | registerError
  | arithmeticError
  | stackUnderflow
  | unhandledInterrupt
  | handlerFault
  | stackOverflow
  deriving DecidableEq, Repr

/-- The detail returned with an error (R281). -/
inductive ErrorDetail where
  /-- ArithmeticError, StackUnderflow and StackOverflow have none. -/
  | nothing
  /-- DecodeAmbiguity: the OPC value. -/
  | opcode (opc : Opc)
  /-- OperandArity: the NOPS value. -/
  | count (nops : Nat)
  /-- OperandKind, and RegisterError of an operand: the slot index. -/
  | slot (k : Nat)
  /-- RegisterError of a handler's write: the handler's position in the snapshot, and the code. -/
  | handlerWrite (position : Nat) (code : Word)
  /-- UnhandledInterrupt: the interrupt id. -/
  | interrupt (id : Word)
  /-- HandlerFault: the handler's position in the snapshot. -/
  | handler (position : Nat)
  deriving DecidableEq, Repr

/-- The drain status (R34). -/
inductive Mode where
  | idle
  | draining
  deriving DecidableEq, Repr

/-- The last-result record (R34): no drain has ended yet, or how the last one ended. -/
inductive LastResult where
  | noResult
  | halted (pc : Word)
  | fault (kind : ErrorKind) (pc : Word)
  deriving DecidableEq, Repr

/-- An entry of the handler registry: the handle and the ids it is bound to (R33, R289). -/
structure Registration where
  handle : Handle
  binds : List Word
  deriving DecidableEq, Repr

/-- One listed answer of the host's handlers: what calling `handle` with `event` does (R294; log 2). -/
structure HandlerRule where
  handle : Handle
  event : InterruptEvent
  answer : HandlerAnswer
  deriving DecidableEq, Repr

/-- The capacities, parameters of the machine that nothing in it can change (R5, R37); `none` is unbounded. -/
structure Params where
  stackCapacity : Option Nat
  storeCapacity : Option Nat
  deriving DecidableEq, Repr

/-- An operation the host may call (R317); `create()` is `State.reset`, and a handler call goes the other way. -/
inductive HostCall where
  /-- Append-and-Drain (R100). -/
  | execute (d : Diw)
  /-- Append-and-Drain of a decoded record, packed at the boundary (R70 to R73, R88). -/
  | submit (r : InstrRecord)
  /-- R289. -/
  | register (handle : Handle) (binds : List Word)
  /-- R290. -/
  | unregister (handle : Handle)
  /-- Diagnostic read (R313). -/
  | readState
  deriving DecidableEq, Repr

/-- Who moves at a coming step (log 4). -/
inductive Turn where
  /-- the core -/
  | core
  /-- the host, with one call -/
  | call (c : HostCall)
  /-- the host changes what its handlers answer (R286) -/
  | handlersBecome (h : List HandlerRule)
  deriving DecidableEq, Repr

/-- Why the core turned a request away with no effect (R317). -/
inductive RequestRefusal where
  /-- the core is draining (R100, R313, R343) -/
  | busy
  /-- the program store is full (R100) -/
  | storeFull
  /-- the instruction has a floating-point operand (R73) -/
  | floatOperand
  deriving DecidableEq, Repr

/-- What a diagnostic read returns (R313). The 24 views follow from the words by R22. -/
structure Diagnostics where
  regs : RegBank
  flags : FlagBits
  packedFlags : Word
  pc : Word
  length : Nat
  store : List Diw
  stack : List Word
  last : LastResult
  registry : List Registration
  deriving DecidableEq, Repr

/-- What the core returns to the host (R281, R313, R317). -/
inductive Reply where
  | halted (pc : Word)
  | fault (kind : ErrorKind) (pc : Word) (detail : ErrorDetail)
  | refused (why : RequestRefusal)
  | diagnostics (d : Diagnostics)
  deriving DecidableEq, Repr

/-- The whole machine. `turns` and `reply` are the model's own fields (logs 4 and 5), `params` and `handlers` the spec's
parameters (R5, R37); all the others are the spec's state. -/
structure State where
  /-- the register bank (R20) -/
  regs : RegBank
  /-- the flags register (R26) -/
  flags : FlagBits
  /-- the program counter (R30) -/
  pc : Word
  /-- the taken latch (R35); false between instructions (log 6) -/
  taken : Bool
  /-- the program store, index 0 first (R31) -/
  store : List Diw
  /-- the operand stack, top first (R32, R61) -/
  stack : List Word
  /-- the handler registry, in registration order (R33) -/
  registry : List Registration
  /-- the drain status (R34) -/
  mode : Mode
  /-- the last-result record (R34) -/
  last : LastResult
  /-- the capacities (R5) -/
  params : Params
  /-- the listed answers of the host's handlers (R5, R294; log 2) -/
  handlers : List HandlerRule
  /-- who moves at the coming steps; when empty, the core (log 4) -/
  turns : List Turn
  /-- the last value returned to the host (log 5) -/
  reply : Option Reply
  deriving DecidableEq, Repr

/-- Why a step stops the machine. -/
inductive Fault where
  /-- Raised by INT when the host's handler at this position of the snapshot never returns: it "stops the core for ever"
  (R299; U9 `stuck`). SAFE: the spec's machine makes no further step either (log 3). -/
  | handlerNeverReturns (position : Nat)
  deriving DecidableEq, Repr

/-- Why a step refuses an instruction. -/
inductive Refusal where
  /-- Raised by an arm of `exec` whose instruction has no meaning yet; no arm of this model raises it. SAFE: the model stops
  where the machine goes on. -/
  | notModelled (mnemonic : String)
  deriving DecidableEq, Repr

/-- The register bank at creation: every word 0 (R20, R36). -/
def RegBank.zero : RegBank := ⟨0, 0, 0, 0, 0, 0, 0, 0⟩

/-- The flags at creation: all clear (R26, R36). -/
def FlagBits.clear : FlagBits := ⟨false, false, false, false, false, false⟩

/-- The machine at creation (R36, R331), with the default parameters of R5. The taken latch, the listed answers, the turns and
the reply have the values of logs 6, 2, 4 and 5. -/
def State.reset : State where
  regs := RegBank.zero
  flags := FlagBits.clear
  pc := 0
  taken := false
  store := []
  stack := []
  registry := []
  mode := .idle
  last := .noResult
  params := ⟨none, none⟩
  handlers := []
  turns := []
  reply := none

end Sys2Proof.Machine
end

