-- ==== Sys2Proof/Machine/Flags.lean ====
section
/-! DEFINITION. Every flag computation of the spec, the masked flag write (R39), the packed flags word (R27) and the conditions
of the conditional jumps (R221). -/

namespace Sys2Proof.Machine

/-! ## Result flags (R110) -/

/-- ZF_of: the 32-bit result is zero. -/
def zfOf (r : Word) : Bool := r == 0

/-- SF_of: bit 31 of the result. -/
def sfOf (r : Word) : Bool := r.getLsbD 31

/-- The number of set bits of the low byte. -/
def popcountLow8 (r : Word) : Nat := (List.range 8).countP (fun k => r.getLsbD k)

/-- PF_of: the low byte has an even number of set bits. -/
def pfOf (r : Word) : Bool := popcountLow8 r % 2 == 0

/-! ## Add, subtract and compare (R111, R151, R260) -/

/-- ADD_CF: the sum, computed without wrap, exceeds 0xFFFFFFFF. -/
def addCf (a b : Word) : Bool := decide (0xFFFFFFFF < a.toNat + b.toNat)

/-- ADD_OF: the operands' signs agree and the result's differs. -/
def addOf (a b : Word) : Bool := a.getLsbD 31 == b.getLsbD 31 && (a + b).getLsbD 31 != a.getLsbD 31

/-- SUB_OF: the operands' signs differ and the result's differs from the first. -/
def subOf (a b : Word) : Bool := a.getLsbD 31 != b.getLsbD 31 && (a - b).getLsbD 31 != a.getLsbD 31

/-- SUB's carry: 1 means "no borrow" (R151, C2). -/
def subCf (a b : Word) : Bool := decide (b.toNat ≤ a.toNat)

/-- CMP's carry: the conventional borrow (R260, C3). -/
def cmpCf (a b : Word) : Bool := decide (a.toNat < b.toNat)

/-! ## Multiply (R152) -/

/-- The exact product, as a 64-bit value. -/
def product (a b : Word) : BitVec 64 := BitVec.ofNat 64 (a.toNat * b.toNat)

/-- CF and OF of MUL: the high word of the product is nonzero. -/
def mulHigh (a b : Word) : Bool := (product a b).extractLsb' 32 32 != 0

/-! ## Shifts (R190 to R194), for a count from 1 to 31 -/

/-- The shift count: the operand masked with 0x1F (R190). -/
def shiftCount (b : Word) : Nat := (b &&& 0x1F).toNat

/-- CF of a left shift: the last bit shifted out of the top. -/
def shlCf (a : Word) (n : Nat) : Bool := a.getLsbD (32 - n)

/-- OF of a left shift: the exclusive or of the two top bits of the result. -/
def shlOf (r : Word) : Bool := r.getLsbD 31 ^^ r.getLsbD 30

/-- CF of a right shift: the last bit shifted out of the bottom. -/
def shrCf (a : Word) (n : Nat) : Bool := a.getLsbD (n - 1)

/-- OF of SHR: the original bit 31 (R194, U3). -/
def shrOf (a : Word) : Bool := a.getLsbD 31

/-! ## The masked flag write (R39) -/

/-- A write of the flags register: `some b` enables a flag's write with the value `b`, `none` leaves the flag alone. -/
structure FlagWrite where
  cf : Option Bool := none
  pf : Option Bool := none
  af : Option Bool := none
  zf : Option Bool := none
  sf : Option Bool := none
  of : Option Bool := none
  deriving DecidableEq, Repr

/-- Each enabled flag takes its value and every other flag keeps its own (R29, R39). -/
def commitFlags (w : FlagWrite) (f : FlagBits) : FlagBits where
  cf := w.cf.getD f.cf
  pf := w.pf.getD f.pf
  af := w.af.getD f.af
  zf := w.zf.getD f.zf
  sf := w.sf.getD f.sf
  of := w.of.getD f.of

/-! ## The packed flags word (R27) -/

/-- One flag at its bit position. -/
def flagAt (b : Bool) (k : Nat) : Word := if b then BitVec.ofNat 32 (2 ^ k) else 0

/-- FLAGS: CF at bit 0, PF 2, AF 4, ZF 6, SF 7, OF 11, every other bit 0. -/
def packFlags (f : FlagBits) : Word :=
  flagAt f.cf 0 ||| flagAt f.pf 2 ||| flagAt f.af 4 ||| flagAt f.zf 6 ||| flagAt f.sf 7 ||| flagAt f.of 11

/-! ## Conditions of the conditional jumps (R221) -/

/-- JE, JZ. -/
def condEqual (f : FlagBits) : Bool := f.zf

/-- JNE, JNZ. -/
def condNotEqual (f : FlagBits) : Bool := !f.zf

/-- JA, JNBE. -/
def condAbove (f : FlagBits) : Bool := !f.cf && !f.zf

/-- JAE, JNB. -/
def condAboveEqual (f : FlagBits) : Bool := !f.cf

/-- JB, JNAE. -/
def condBelow (f : FlagBits) : Bool := f.cf

/-- JBE, JNA. -/
def condBelowEqual (f : FlagBits) : Bool := f.cf || f.zf

/-- JG, JNLE. -/
def condGreater (f : FlagBits) : Bool := !f.zf && f.sf == f.of

/-- JGE, JNL. -/
def condGreaterEqual (f : FlagBits) : Bool := f.sf == f.of

/-- JL, JNGE. -/
def condLess (f : FlagBits) : Bool := f.sf != f.of

/-- JLE, JNG. -/
def condLessEqual (f : FlagBits) : Bool := f.zf || f.sf != f.of

/-- JC. -/
def condCarry (f : FlagBits) : Bool := f.cf

/-- JNC. -/
def condNoCarry (f : FlagBits) : Bool := !f.cf

/-- JO. -/
def condOverflow (f : FlagBits) : Bool := f.of

/-- JNO. -/
def condNoOverflow (f : FlagBits) : Bool := !f.of

/-- JS. -/
def condSign (f : FlagBits) : Bool := f.sf

/-- JNS. -/
def condNoSign (f : FlagBits) : Bool := !f.sf

/-- JP, JPE. -/
def condParity (f : FlagBits) : Bool := f.pf

/-- JNP, JPO. -/
def condNoParity (f : FlagBits) : Bool := !f.pf

end Sys2Proof.Machine
end

