-- ==== Sys2Proof/Config.lean ====
section
/-! DEFINITION. What the spec leaves to the host for ever: the answers of its handlers (R5 `handlers`, R115, R294, U5). -/

namespace Sys2Proof

/-- The host's handlers as the spec gives them: a function from (handle, event) to what the call does (R294). It has no body:
no proof can depend on what an answer is. The machine uses it wherever `State.handlers` lists no answer (log 2). -/
opaque Config.handlerAnswer : Machine.Handle → Machine.InterruptEvent → Machine.HandlerAnswer

end Sys2Proof
end

