-- ==== Sys2Proof/Machine/Ops.lean ====
section
/-! DEFINITION. The named operations on the state: register views (R21 to R24), the operand stack (R61), control transfer and
the program counter (R101 to R104), taking an error (R284), and calling the host's handlers (R291 to R297). -/

namespace Sys2Proof.Machine

/-- What an instruction or a step answers. -/
abbrev Result := Host.Outcome State Fault Refusal

/-! ## Register views (R20 to R23) -/

/-- The family of a register id (R21). -/
def familyOf (id : RegId) : Family :=
  match id with
  | .eax | .ax | .ah | .al => .eax
  | .ebx | .bx | .bh | .bl => .ebx
  | .ecx | .cx | .ch | .cl => .ecx
  | .edx | .dx | .dh | .dl => .edx
  | .esi | .si => .esi
  | .edi | .di => .edi
  | .esp | .sp => .esp
  | .ebp | .bp => .ebp

/-- The view of a register id (R21). -/
def viewOf (id : RegId) : View :=
  match id with
  | .eax | .ebx | .ecx | .edx | .esi | .edi | .esp | .ebp => .full
  | .ax | .bx | .cx | .dx | .si | .di | .sp | .bp => .low16
  | .ah | .bh | .ch | .dh => .high8
  | .al | .bl | .cl | .dl => .low8

/-- The lowest bit of a view (R21, column lo). -/
def viewLo (v : View) : Nat :=
  match v with
  | .full => 0
  | .low16 => 0
  | .high8 => 8
  | .low8 => 0

/-- The width of a view (R21). -/
def viewWidth (v : View) : Nat :=
  match v with
  | .full => 32
  | .low16 => 16
  | .high8 => 8
  | .low8 => 8

/-- The mask of a view before the shift (R21, last column). -/
def viewMask (v : View) : Word :=
  match v with
  | .full => 0xFFFFFFFF
  | .low16 => 0xFFFF
  | .high8 => 0xFF
  | .low8 => 0xFF

/-- `G[f]`, the backing word of a family (R7). -/
def readFamily (f : Family) (g : RegBank) : Word :=
  match f with
  | .eax => g.eax
  | .ebx => g.ebx
  | .ecx => g.ecx
  | .edx => g.edx
  | .esi => g.esi
  | .edi => g.edi
  | .esp => g.esp
  | .ebp => g.ebp

/-- `G[f] <- w`, a whole-family write (R7). -/
def writeFamily (f : Family) (w : Word) (g : RegBank) : RegBank :=
  match f with
  | .eax => { g with eax := w }
  | .ebx => { g with ebx := w }
  | .ecx => { g with ecx := w }
  | .edx => { g with edx := w }
  | .esi => { g with esi := w }
  | .edi => { g with edi := w }
  | .esp => { g with esp := w }
  | .ebp => { g with ebp := w }

/-- `GET(id)`: the view's slice, zero-extended (R22). -/
def getReg (id : RegId) (g : RegBank) : Word :=
  (readFamily (familyOf id) g >>> viewLo (viewOf id)) &&& viewMask (viewOf id)

/-- `SET(id, v)`: the low bits of `v` into the view's slice, every other bit kept (R23). -/
def setReg (id : RegId) (v : Word) (g : RegBank) : RegBank :=
  let m := viewMask (viewOf id) <<< viewLo (viewOf id)
  writeFamily (familyOf id) ((readFamily (familyOf id) g &&& ~~~m) ||| ((v <<< viewLo (viewOf id)) &&& m)) g

/-! ## Taking an error (R280, R281, R284) -/

/-- The numeric code of an error kind (R280). -/
def errorCode (k : ErrorKind) : Nat :=
  match k with
  | .decodeAmbiguity => 1
  | .operandArity => 2
  | .operandKind => 3
  | .registerError => 4
  | .arithmeticError => 5
  | .stackUnderflow => 6
  | .unhandledInterrupt => 7
  | .handlerFault => 8
  | .stackOverflow => 9

/-- The numeric code of the last-result record: 0 for none and for Halted (R280). -/
def lastCode (l : LastResult) : Nat :=
  match l with
  | .noResult => 0
  | .halted _ => 0
  | .fault k _ => errorCode k

/-- `raise E(info)` (R284): from a state that holds only what is committed, the failing instruction's index stays in `pc`, the
record and the reply say what failed where, and the drain is over. Nothing else changes: nothing is pushed and no flag records
the error. -/
def raiseError (k : ErrorKind) (detail : ErrorDetail) (s : State) : State :=
  { s with last := .fault k s.pc, mode := .idle, reply := some (.fault k s.pc detail) }

/-- The error of a failed check before execution, with the detail of R281. -/
def raiseOperandError (e : OperandError) (s : State) : State :=
  match e with
  | .arity n => raiseError .operandArity (.count n) s
  | .kind k => raiseError .operandKind (.slot k) s
  | .register k => raiseError .registerError (.slot k) s

/-! ## The operand stack (R61) -/

/-- Whether a push would exceed the capacity. An unbounded stack is never full. -/
def stackFull (s : State) : Bool :=
  match s.params.stackCapacity with
  | some n => decide (n ≤ s.stack.length)
  | none => false

/-- `Push(v)`: the value on top, or StackOverflow. -/
def pushWord (v : Word) (s : State) : State :=
  if stackFull s then raiseError .stackOverflow .nothing s else { s with stack := v :: s.stack }

/-- `Top()`: go on with the top value, or raise StackUnderflow on an empty stack. Alone it is the source's peek, used by no
instruction; `Pop()` is built on it. -/
def stackTop (s : State) (rule : Word → Result) : Result :=
  match s.stack with
  | [] => .next (raiseError .stackUnderflow .nothing s)
  | v :: _ => rule v

/-- `Pop()`: go on with the top value and the state without it, or raise StackUnderflow on an empty stack. -/
def popWord (s : State) (rule : Word → State → Result) : Result :=
  stackTop s fun v => rule v { s with stack := s.stack.tail }

/-! ## Control transfer and the program counter (R101 to R104, R114) -/

/-- `pc <- target`: overwrite the counter and mark the transfer as taken (R102). -/
def transferTo (target : Word) (s : State) : State := { s with pc := target, taken := true }

/-- `Fetch(pc)`: the word at `pc`, or `none` when `pc >= N` (R59, R101). -/
def fetchWord (s : State) : Option Diw := s.store[s.pc.toNat]?

/-- The start of an iteration of the drain loop: `taken <- 0` (R101). -/
def clearTaken (s : State) : State := { s with taken := false }

/-- The end of a drain at `pc >= N` (R101, R104). -/
def endDrain (s : State) : State :=
  { s with last := .halted s.pc, mode := .idle, reply := some (.halted s.pc) }

/-- The end of an instruction (R103, R114): after an error `pc` stays, a taken transfer has already written it, and otherwise it
goes up by one modulo 2^32. The taken latch does not outlive the instruction (R35). -/
def finishInstr (s : State) : State :=
  match s.mode with
  | .idle => clearTaken s
  | .draining => if s.taken then clearTaken s else clearTaken { s with pc := s.pc + 1 }

/-! ## Calling the host's handlers (R291 to R297) -/

/-- The answer of a handler to an event: the listed one, or the host's function where none is listed (R294; log 2). -/
def handlerAnswer (table : List HandlerRule) (h : Handle) (ev : InterruptEvent) : HandlerAnswer :=
  match table.find? (fun r => r.handle == h && r.event == ev) with
  | some r => r.answer
  | none => Config.handlerAnswer h ev

/-- A response's writes in list order, each committed at once; the first unresolved code stops them (R294). -/
def applyWrites (writes : List (Word × Word)) (g : RegBank) : RegBank × Option Word :=
  match writes with
  | [] => (g, none)
  | (code, v) :: rest =>
    match resolveCode code with
    | some id => applyWrites rest (setReg id v g)
    | none => (g, some code)

/-- Whether some entry of the snapshot is bound to the id (R291). -/
def isBound (id : Word) (snapshot : List Registration) : Bool :=
  snapshot.any (fun e => e.binds.contains id)

/-- The dispatch loop of R297, from position `j` of the snapshot. -/
def dispatchHandlers (id : Word) (snapshot : List Registration) (j : Nat) (s : State) : Result :=
  match snapshot with
  | [] => .next s
  | e :: rest =>
    match handlerAnswer s.handlers e.handle ⟨id, s.regs⟩ with
    | .neverReturns => .fault (.handlerNeverReturns j)
    | .returns r =>
      match applyWrites r.writes s.regs with
      | (g, some code) => .next (raiseError .registerError (.handlerWrite j code) { s with regs := g })
      | (g, none) =>
        if r.failed then .next (raiseError .handlerFault (.handler j) { s with regs := g })
        else dispatchHandlers id rest (j + 1) { s with regs := g }

/-- `Notify(i)` (R297): the bound check on the snapshot, then the dispatch of every entry, bound or not (R291 to R293). -/
def notifyHandlers (id : Word) (s : State) : Result :=
  if isBound id s.registry then dispatchHandlers id s.registry 0 s
  else .next (raiseError .unhandledInterrupt (.interrupt id) s)

end Sys2Proof.Machine
end

