-- ==== Sys2Proof/Machine/Operands.lean ====
section
/-! DEFINITION. Operand forms: the checks before execution for each signature of R78, in the order of R105, and the values the
operands give (R106). -/

namespace Sys2Proof.Machine

/-- A checked operand: an immediate, or a register id. -/
inductive Src where
  | imm (value : Word)
  | reg (id : RegId)
  deriving DecidableEq, Repr

/-- `VAL(k)`: the immediate's pattern, or the register view zero-extended (R106). -/
def srcVal (a : Src) (g : RegBank) : Word :=
  match a with
  | .imm v => v
  | .reg id => getReg id g

/-- The operand slot that stands for a checked operand (R74, R75). -/
def srcOperand (a : Src) : Operand :=
  match a with
  | .imm v => .imm v
  | .reg id => .reg (regCode id)

/-- A register code in slot `k` (check 4 of R282). -/
def takeCode (k : Nat) (code : Word) : Except OperandError RegId :=
  match resolveCode code with
  | some id => .ok id
  | none => .error (.register k)

/-- A `reg|imm` slot `k`: either kind, and a register's code must resolve. -/
def takeEither (k : Nat) (a : Operand) : Except OperandError Src :=
  match a with
  | .imm v => .ok (.imm v)
  | .reg c =>
    match takeCode k c with
    | .ok id => .ok (.reg id)
    | .error e => .error e

/-- Signature `reg, reg|imm` (MOV, ADD, SUB, AND, OR, XOR, the shifts, CMP). -/
def takeDstSrc (o : Operands) : Except OperandError (RegId × Src) :=
  match o with
  | .two a b =>
    match a with
    | .imm _ => .error (.kind 0)
    | .reg c =>
      match takeCode 0 c with
      | .error e => .error e
      | .ok d =>
        match takeEither 1 b with
        | .error e => .error e
        | .ok src => .ok (d, src)
  | .zero | .one _ | .many _ _ => .error (.arity (operandCount o))

/-- Signature `reg|imm` (MUL, DIV, PUSH, JMP, the conditional jumps). -/
def takeSrc (o : Operands) : Except OperandError Src :=
  match o with
  | .one a => takeEither 0 a
  | .zero | .two _ _ | .many _ _ => .error (.arity (operandCount o))

/-- Signature `reg` (INC, DEC, NOT, POP). -/
def takeDst (o : Operands) : Except OperandError RegId :=
  match o with
  | .one (.reg c) => takeCode 0 c
  | .one (.imm _) => .error (.kind 0)
  | .zero | .two _ _ | .many _ _ => .error (.arity (operandCount o))

/-- Signature `imm` (INT). -/
def takeImm (o : Operands) : Except OperandError Word :=
  match o with
  | .one (.imm v) => .ok v
  | .one (.reg _) => .error (.kind 0)
  | .zero | .two _ _ | .many _ _ => .error (.arity (operandCount o))

/-- The empty signature (NOP). -/
def takeNone (o : Operands) : Except OperandError Unit :=
  match o with
  | .zero => .ok ()
  | .one _ | .two _ _ | .many _ _ => .error (.arity (operandCount o))

/-- Run an instruction's rule on its checked operands, or raise the error of the checks before anything is read or written
(R105). -/
def withChecked {α : Type} (c : Except OperandError α) (s : State) (rule : α → Result) : Result :=
  match c with
  | .ok a => rule a
  | .error e => .next (raiseOperandError e s)

end Sys2Proof.Machine
end

