-- ==== Sys2Proof/Machine/Alu.lean ====
section
/-! DEFINITION. The block alu_with_flags_update (R113): every operation on two 32-bit values, its result, the flags it writes
and the values it gives them; and the commit of its outputs to a destination view (R107, R108, R109). -/

namespace Sys2Proof.Machine

/-- The operations of the ALU (R113). -/
inductive AluOp where
  | add | sub | cmp | mul | div | inc | dec
  | and | or | xor | not
  | shl | sar | shr
  | pass
  deriving DecidableEq, Repr

/-- The outputs of the ALU (R113): the result, the high product word, the flag write, and whether a division is by zero. -/
structure AluOut where
  r : Word
  pHi : Word := 0
  fl : FlagWrite := {}
  div0 : Bool := false
  deriving DecidableEq, Repr

/-- ADD (R150). -/
def aluAdd (a b : Word) : AluOut where
  r := a + b
  fl := { cf := some (addCf a b), of := some (addOf a b), zf := some (zfOf (a + b)), sf := some (sfOf (a + b)) }

/-- SUB, with the inverted carry (R151). -/
def aluSub (a b : Word) : AluOut where
  r := a - b
  fl := { cf := some (subCf a b), of := some (subOf a b), zf := some (zfOf (a - b)), sf := some (sfOf (a - b)) }

/-- CMP, with the conventional borrow (R260). -/
def aluCmp (a b : Word) : AluOut where
  r := a - b
  fl := { cf := some (cmpCf a b), of := some (subOf a b), zf := some (zfOf (a - b)), sf := some (sfOf (a - b)) }

/-- MUL: the low word, and CF and OF from the high word (R152). -/
def aluMul (a b : Word) : AluOut where
  r := (product a b).extractLsb' 0 32
  pHi := (product a b).extractLsb' 32 32
  fl := { cf := some (mulHigh a b), of := some (mulHigh a b) }

/-- DIV: the unsigned quotient; no flag (R153). -/
def aluDiv (a b : Word) : AluOut where
  r := BitVec.ofNat 32 (a.toNat / b.toNat)
  div0 := b == 0

/-- INC; no flag (R154). -/
def aluInc (a : Word) : AluOut where
  r := a + 1

/-- DEC; no flag (R155). -/
def aluDec (a : Word) : AluOut where
  r := a - 1

/-- The flag write of AND, OR and XOR: ZF, SF and PF from the result, CF and OF cleared. -/
def logicFlags (r : Word) : FlagWrite where
  cf := some false
  pf := some (pfOf r)
  zf := some (zfOf r)
  sf := some (sfOf r)
  of := some false

/-- AND (R180). -/
def aluAnd (a b : Word) : AluOut where
  r := a &&& b
  fl := logicFlags (a &&& b)

/-- OR (R181). -/
def aluOr (a b : Word) : AluOut where
  r := a ||| b
  fl := logicFlags (a ||| b)

/-- XOR (R182). -/
def aluXor (a b : Word) : AluOut where
  r := a ^^^ b
  fl := logicFlags (a ^^^ b)

/-- NOT; no flag (R183). -/
def aluNot (a : Word) : AluOut where
  r := ~~~a

/-- The flag write of a shift by a nonzero count. -/
def shiftFlags (cf of : Bool) (r : Word) : FlagWrite where
  cf := some cf
  pf := some (pfOf r)
  zf := some (zfOf r)
  sf := some (sfOf r)
  of := some of

/-- SAL and SHL (R190 to R192); a count of 0 gives the operand back and writes no flag. -/
def aluShl (a b : Word) : AluOut :=
  let n := shiftCount b
  let r := a <<< n
  if n = 0 then { r := a } else { r := r, fl := shiftFlags (shlCf a n) (shlOf r) r }

/-- SAR (R190, R193). -/
def aluSar (a b : Word) : AluOut :=
  let n := shiftCount b
  let r := a.sshiftRight n
  if n = 0 then { r := a } else { r := r, fl := shiftFlags (shrCf a n) false r }

/-- SHR (R190, R194). -/
def aluShr (a b : Word) : AluOut :=
  let n := shiftCount b
  let r := a >>> n
  if n = 0 then { r := a } else { r := r, fl := shiftFlags (shrCf a n) (shrOf a) r }

/-- PASS, for MOV, PUSH and POP: the second operand. -/
def aluPass (b : Word) : AluOut where
  r := b

/-- The ALU (R113). -/
def alu (op : AluOp) (a b : Word) : AluOut :=
  match op with
  | .add => aluAdd a b
  | .sub => aluSub a b
  | .cmp => aluCmp a b
  | .mul => aluMul a b
  | .div => aluDiv a b
  | .inc => aluInc a
  | .dec => aluDec a
  | .and => aluAnd a b
  | .or => aluOr a b
  | .xor => aluXor a b
  | .not => aluNot a
  | .shl => aluShl a b
  | .sar => aluSar a b
  | .shr => aluShr a b
  | .pass => aluPass b

/-- The commit of an ALU result to a register view and of its flag write to the flags (R107, R108). -/
def commitAlu (d : RegId) (out : AluOut) (s : State) : State :=
  { s with regs := setReg d out.r s.regs, flags := commitFlags out.fl s.flags }

/-- The commit of an ALU flag write alone (R260). -/
def commitAluFlags (out : AluOut) (s : State) : State :=
  { s with flags := commitFlags out.fl s.flags }

/-- `op dst, src`: both operands read from the state before the instruction, the result into `dst` (R106 to R109). -/
def aluDstSrc (op : AluOp) (d : RegId) (src : Src) (s : State) : State :=
  commitAlu d (alu op (getReg d s.regs) (srcVal src s.regs)) s

/-- A shift of `dst` by `src`; with a masked count of 0 it has no effect at all (R190). -/
def shiftDstSrc (op : AluOp) (d : RegId) (src : Src) (s : State) : State :=
  if shiftCount (srcVal src s.regs) = 0 then s else aluDstSrc op d src s

end Sys2Proof.Machine
end

