-- ==== Sys2Proof/Machine/Arithmetic.lean ====
section
/-! DEFINITION. ADD, SUB, MUL, DIV, INC, DEC (42_arithmetic.md). -/

namespace Sys2Proof.Machine

/-- ADD (R150): the sum modulo 2^32 into the destination; CF, OF, ZF, SF. -/
def execAdd (o : Operands) (s : State) : Result :=
  withChecked (takeDstSrc o) s fun p => .next (aluDstSrc .add p.1 p.2 s)

/-- SUB (R151): the difference into the destination; CF (no borrow), OF, ZF, SF. -/
def execSub (o : Operands) (s : State) : Result :=
  withChecked (takeDstSrc o) s fun p => .next (aluDstSrc .sub p.1 p.2 s)


/-- MUL (R152): EAX times the source; the low word into EAX; CF and OF from the high word. EDX is not touched. -/
def execMul (o : Operands) (s : State) : Result :=
  withChecked (takeSrc o) s fun src =>
    let out := alu .mul (readFamily .eax s.regs) (srcVal src s.regs)
    .next { s with regs := writeFamily .eax out.r s.regs, flags := commitFlags out.fl s.flags }

/-- DIV (R153): the unsigned quotient of EAX by the source into EAX; ArithmeticError for a zero divisor; no flag. -/
def execDiv (o : Operands) (s : State) : Result :=
  withChecked (takeSrc o) s fun src =>
    let out := alu .div (readFamily .eax s.regs) (srcVal src s.regs)
    if out.div0 then .next (raiseError .arithmeticError .nothing s)
    else .next { s with regs := writeFamily .eax out.r s.regs, flags := commitFlags out.fl s.flags }

/-- INC (R154): the destination plus one; no flag. -/
def execInc (o : Operands) (s : State) : Result :=
  withChecked (takeDst o) s fun d => .next (commitAlu d (alu .inc (getReg d s.regs) 0) s)

/-- DEC (R155): the destination minus one; no flag. -/
def execDec (o : Operands) (s : State) : Result :=
  withChecked (takeDst o) s fun d => .next (commitAlu d (alu .dec (getReg d s.regs) 0) s)

end Sys2Proof.Machine
end

