-- ==== Sys2Proof/Machine/Bitwise.lean ====
section
/-! DEFINITION. AND, OR, XOR, NOT (43_bitwise.md). -/

namespace Sys2Proof.Machine

/-- AND (R180): bitwise and; ZF, SF, PF from the result, CF and OF cleared. -/
def execAnd (o : Operands) (s : State) : Result :=
  withChecked (takeDstSrc o) s fun p => .next (aluDstSrc .and p.1 p.2 s)

/-- OR (R181): bitwise inclusive or; flags as AND. -/
def execOr (o : Operands) (s : State) : Result :=
  withChecked (takeDstSrc o) s fun p => .next (aluDstSrc .or p.1 p.2 s)

/-- XOR (R182): bitwise exclusive or; flags as AND. -/
def execXor (o : Operands) (s : State) : Result :=
  withChecked (takeDstSrc o) s fun p => .next (aluDstSrc .xor p.1 p.2 s)


/-- NOT (R183): the complement; no flag. -/
def execNot (o : Operands) (s : State) : Result :=
  withChecked (takeDst o) s fun d => .next (commitAlu d (alu .not (getReg d s.regs) 0) s)

end Sys2Proof.Machine
end

