-- ==== Sys2Proof/Machine/Compare.lean ====
section
/-! DEFINITION. CMP (47_compare.md). -/

namespace Sys2Proof.Machine

/-- CMP (R260): the flags of the difference, with the conventional borrow; nothing is stored. -/
def execCmp (o : Operands) (s : State) : Result :=
  withChecked (takeDstSrc o) s fun p =>
    .next (commitAluFlags (alu .cmp (getReg p.1 s.regs) (srcVal p.2 s.regs)) s)

end Sys2Proof.Machine
end

