-- ==== Sys2Proof/Machine/ControlFlow.lean ====
section
/-! DEFINITION. JMP and the 30 conditional jumps (46_control_flow.md). The conditions are those of R221, in Flags.lean. -/

namespace Sys2Proof.Machine

/-- The template of every conditional jump (R223): the checks run whether or not the jump is taken; then the transfer when the
condition holds, and otherwise nothing. The target is an absolute index and is not checked against the store (R220). -/
def jumpIf (cond : Bool) (o : Operands) (s : State) : Result :=
  withChecked (takeSrc o) s fun src => .next (if cond then transferTo (srcVal src s.regs) s else s)

/-- JMP (R222): the transfer, always. -/
def execJmp (o : Operands) (s : State) : Result :=
  withChecked (takeSrc o) s fun src => .next (transferTo (srcVal src s.regs) s)

/-- JE (R224). -/
def execJe (o : Operands) (s : State) : Result := jumpIf (condEqual s.flags) o s

/-- JZ (R225). -/
def execJz (o : Operands) (s : State) : Result := jumpIf (condEqual s.flags) o s

/-- JNE (R226). -/
def execJne (o : Operands) (s : State) : Result := jumpIf (condNotEqual s.flags) o s

/-- JNZ (R227). -/
def execJnz (o : Operands) (s : State) : Result := jumpIf (condNotEqual s.flags) o s

/-- JA (R228). -/
def execJa (o : Operands) (s : State) : Result := jumpIf (condAbove s.flags) o s

/-- JNBE (R229). -/
def execJnbe (o : Operands) (s : State) : Result := jumpIf (condAbove s.flags) o s

/-- JAE (R230). -/
def execJae (o : Operands) (s : State) : Result := jumpIf (condAboveEqual s.flags) o s

/-- JNB (R231). -/
def execJnb (o : Operands) (s : State) : Result := jumpIf (condAboveEqual s.flags) o s

/-- JB (R232). -/
def execJb (o : Operands) (s : State) : Result := jumpIf (condBelow s.flags) o s

/-- JNAE (R233). -/
def execJnae (o : Operands) (s : State) : Result := jumpIf (condBelow s.flags) o s

/-- JBE (R234). -/
def execJbe (o : Operands) (s : State) : Result := jumpIf (condBelowEqual s.flags) o s

/-- JNA (R235). -/
def execJna (o : Operands) (s : State) : Result := jumpIf (condBelowEqual s.flags) o s

/-- JG (R236). -/
def execJg (o : Operands) (s : State) : Result := jumpIf (condGreater s.flags) o s

/-- JNLE (R237). -/
def execJnle (o : Operands) (s : State) : Result := jumpIf (condGreater s.flags) o s

/-- JGE (R238). -/
def execJge (o : Operands) (s : State) : Result := jumpIf (condGreaterEqual s.flags) o s

/-- JNL (R239). -/
def execJnl (o : Operands) (s : State) : Result := jumpIf (condGreaterEqual s.flags) o s

/-- JL (R240). -/
def execJl (o : Operands) (s : State) : Result := jumpIf (condLess s.flags) o s

/-- JNGE (R241). -/
def execJnge (o : Operands) (s : State) : Result := jumpIf (condLess s.flags) o s

/-- JLE (R242). -/
def execJle (o : Operands) (s : State) : Result := jumpIf (condLessEqual s.flags) o s

/-- JNG (R243). -/
def execJng (o : Operands) (s : State) : Result := jumpIf (condLessEqual s.flags) o s

/-- JC (R244). -/
def execJc (o : Operands) (s : State) : Result := jumpIf (condCarry s.flags) o s

/-- JNC (R245). -/
def execJnc (o : Operands) (s : State) : Result := jumpIf (condNoCarry s.flags) o s

/-- JO (R246). -/
def execJo (o : Operands) (s : State) : Result := jumpIf (condOverflow s.flags) o s

/-- JNO (R247). -/
def execJno (o : Operands) (s : State) : Result := jumpIf (condNoOverflow s.flags) o s

/-- JS (R248). -/
def execJs (o : Operands) (s : State) : Result := jumpIf (condSign s.flags) o s

/-- JNS (R249). -/
def execJns (o : Operands) (s : State) : Result := jumpIf (condNoSign s.flags) o s

/-- JP (R250). -/
def execJp (o : Operands) (s : State) : Result := jumpIf (condParity s.flags) o s

/-- JPE (R251). -/
def execJpe (o : Operands) (s : State) : Result := jumpIf (condParity s.flags) o s

/-- JNP (R252). -/
def execJnp (o : Operands) (s : State) : Result := jumpIf (condNoParity s.flags) o s

/-- JPO (R253). -/
def execJpo (o : Operands) (s : State) : Result := jumpIf (condNoParity s.flags) o s

end Sys2Proof.Machine
end

