-- ==== Sys2Proof/Machine/DataMovement.lean ====
section
/-! DEFINITION. MOV (41_data_movement.md). -/

namespace Sys2Proof.Machine

/-- MOV (R140): the source value into the destination view; no flag. -/
def execMov (o : Operands) (s : State) : Result :=
  withChecked (takeDstSrc o) s fun p => .next (aluDstSrc .pass p.1 p.2 s)

end Sys2Proof.Machine
end

