-- ==== Sys2Proof/Machine/Interrupt.lean ====
section
/-! DEFINITION. INT, NOP, INVALID (48_interrupt_and_nop.md). -/

namespace Sys2Proof.Machine

/-- INT (R265): publish the event to the registered handlers (R297). -/
def execInt (o : Operands) (s : State) : Result :=
  withChecked (takeImm o) s fun id => notifyHandlers id s

/-- NOP (R266): no effect but the drain loop's increment. -/
def execNop (o : Operands) (s : State) : Result :=
  withChecked (takeNone o) s fun _ => .next s

/-- INVALID and the unassigned numbers (R267, R77): DecodeAmbiguity, before every other check. -/
def execInvalid (opc : Opc) (s : State) : Result :=
  .next (raiseError .decodeAmbiguity (.opcode opc) s)

end Sys2Proof.Machine
end

