-- ==== Sys2Proof/Machine/Shifts.lean ====
section
/-! DEFINITION. SAL, SHL, SAR, SHR (44_shifts.md). -/

namespace Sys2Proof.Machine

/-- SAL (R190, R191): left shift by the masked count; CF, OF, ZF, SF, PF for a nonzero count. -/
def execSal (o : Operands) (s : State) : Result :=
  withChecked (takeDstSrc o) s fun p => .next (shiftDstSrc .shl p.1 p.2 s)

/-- SHL (R190, R192): the same as SAL in every respect but its opcode. -/
def execShl (o : Operands) (s : State) : Result :=
  withChecked (takeDstSrc o) s fun p => .next (shiftDstSrc .shl p.1 p.2 s)

/-- SAR (R190, R193): arithmetic right shift; OF cleared. -/
def execSar (o : Operands) (s : State) : Result :=
  withChecked (takeDstSrc o) s fun p => .next (shiftDstSrc .sar p.1 p.2 s)

/-- SHR (R190, R194): logical right shift; OF is the original bit 31. -/
def execShr (o : Operands) (s : State) : Result :=
  withChecked (takeDstSrc o) s fun p => .next (shiftDstSrc .shr p.1 p.2 s)

end Sys2Proof.Machine
end

