-- ==== Sys2Proof/Machine/Stack.lean ====
section
/-! DEFINITION. PUSH, POP (45_stack.md). -/

namespace Sys2Proof.Machine

/-- PUSH (R210): the source value, zero-extended, onto the operand stack; StackOverflow when a finite stack is full. -/
def execPush (o : Operands) (s : State) : Result :=
  withChecked (takeSrc o) s fun src => .next (pushWord (alu .pass 0 (srcVal src s.regs)).r s)

/-- POP (R211): the top of the operand stack into the destination view; StackUnderflow when the stack is empty. -/
def execPop (o : Operands) (s : State) : Result :=
  withChecked (takeDst o) s fun d =>
    popWord s fun v s' => .next { s' with regs := setReg d (alu .pass 0 v).r s'.regs }

end Sys2Proof.Machine
end

