-- ==== Sys2Proof/Machine/Dispatch.lean ====
section
/-! DEFINITION. The dispatch of an instruction to its meaning (R112: every opcode has exactly one outcome). -/

namespace Sys2Proof.Machine

def exec (i : Instr) (s : State) : Host.Outcome State Fault Refusal :=
  match i with
  | .mov o => Sys2Proof.Machine.execMov o s
  | .add o => Sys2Proof.Machine.execAdd o s
  | .sub o => Sys2Proof.Machine.execSub o s
  | .mul o => Sys2Proof.Machine.execMul o s
  | .div o => Sys2Proof.Machine.execDiv o s
  | .inc o => Sys2Proof.Machine.execInc o s
  | .dec o => Sys2Proof.Machine.execDec o s
  | .and o => Sys2Proof.Machine.execAnd o s
  | .or o => Sys2Proof.Machine.execOr o s
  | .xor o => Sys2Proof.Machine.execXor o s
  | .not o => Sys2Proof.Machine.execNot o s
  | .sal o => Sys2Proof.Machine.execSal o s
  | .sar o => Sys2Proof.Machine.execSar o s
  | .shl o => Sys2Proof.Machine.execShl o s
  | .shr o => Sys2Proof.Machine.execShr o s
  | .push o => Sys2Proof.Machine.execPush o s
  | .pop o => Sys2Proof.Machine.execPop o s
  | .jmp o => Sys2Proof.Machine.execJmp o s
  | .je o => Sys2Proof.Machine.execJe o s
  | .jz o => Sys2Proof.Machine.execJz o s
  | .jne o => Sys2Proof.Machine.execJne o s
  | .jnz o => Sys2Proof.Machine.execJnz o s
  | .ja o => Sys2Proof.Machine.execJa o s
  | .jnbe o => Sys2Proof.Machine.execJnbe o s
  | .jae o => Sys2Proof.Machine.execJae o s
  | .jnb o => Sys2Proof.Machine.execJnb o s
  | .jb o => Sys2Proof.Machine.execJb o s
  | .jnae o => Sys2Proof.Machine.execJnae o s
  | .jbe o => Sys2Proof.Machine.execJbe o s
  | .jna o => Sys2Proof.Machine.execJna o s
  | .jg o => Sys2Proof.Machine.execJg o s
  | .jnle o => Sys2Proof.Machine.execJnle o s
  | .jge o => Sys2Proof.Machine.execJge o s
  | .jnl o => Sys2Proof.Machine.execJnl o s
  | .jl o => Sys2Proof.Machine.execJl o s
  | .jnge o => Sys2Proof.Machine.execJnge o s
  | .jle o => Sys2Proof.Machine.execJle o s
  | .jng o => Sys2Proof.Machine.execJng o s
  | .jc o => Sys2Proof.Machine.execJc o s
  | .jnc o => Sys2Proof.Machine.execJnc o s
  | .jo o => Sys2Proof.Machine.execJo o s
  | .jno o => Sys2Proof.Machine.execJno o s
  | .js o => Sys2Proof.Machine.execJs o s
  | .jns o => Sys2Proof.Machine.execJns o s
  | .jp o => Sys2Proof.Machine.execJp o s
  | .jpe o => Sys2Proof.Machine.execJpe o s
  | .jnp o => Sys2Proof.Machine.execJnp o s
  | .jpo o => Sys2Proof.Machine.execJpo o s
  | .cmp o => Sys2Proof.Machine.execCmp o s
  | .int o => Sys2Proof.Machine.execInt o s
  | .nop o => Sys2Proof.Machine.execNop o s
  | .invalid opc => Sys2Proof.Machine.execInvalid opc s

end Sys2Proof.Machine
end

