-- ==== Sys2Proof/Machine/HostCalls.lean ====
section
/-! DEFINITION. The host's operations (R317): Append-and-Drain (R100), register and unregister (R289, R290), the diagnostic read (R313). -/

namespace Sys2Proof.Machine

/-- A request turned away: no effect, and the reply says why (R317). -/
def refuseCall (why : RequestRefusal) (s : State) : State := { s with reply := some (.refused why) }

/-- Whether the store cannot take another instruction (R100). An unbounded store is never full. -/
def storeFull (s : State) : Bool :=
  match s.params.storeCapacity with
  | some n => decide (n ≤ s.store.length)
  | none => false

/-- Append-and-Drain (R100): append the word and start draining. The drain itself is the core's coming steps. -/
def appendAndDrain (d : Diw) (s : State) : State :=
  match s.mode with
  | .draining => refuseCall .busy s
  | .idle => if storeFull s then refuseCall .storeFull s else { s with store := s.store ++ [d], mode := .draining }

/-- Append-and-Drain of a decoded record; one with a floating-point operand is refused (R73). -/
def submitRecord (r : InstrRecord) (s : State) : State :=
  match packRecord r with
  | some d => appendAndDrain d s
  | none => refuseCall .floatOperand s

/-- `register(h, binds)` (R289): the entry at the end, unless the handle is there already. -/
def registerHandler (h : Handle) (binds : List Word) (s : State) : State :=
  if s.registry.any (fun e => e.handle == h) then s else { s with registry := s.registry ++ [⟨h, binds⟩] }

/-- `unregister(h)` (R290): without the entry of the handle, the order of the others kept. -/
def unregisterHandler (h : Handle) (s : State) : State :=
  { s with registry := s.registry.filter (fun e => e.handle != h) }

/-- What the host reads while the core is idle (R313). -/
def diagnosticView (s : State) : Diagnostics where
  regs := s.regs
  flags := s.flags
  packedFlags := packFlags s.flags
  pc := s.pc
  length := s.store.length
  store := s.store
  stack := s.stack
  last := s.last
  registry := s.registry

/-- The diagnostic read (R313): it changes nothing but the reply, and is refused while a drain runs. -/
def readDiagnostics (s : State) : State :=
  match s.mode with
  | .draining => refuseCall .busy s
  | .idle => { s with reply := some (.diagnostics (diagnosticView s)) }

/-- One call of the host, served at once (R301, R317). -/
def serveCall (c : HostCall) (s : State) : State :=
  match c with
  | .execute d => appendAndDrain d s
  | .submit r => submitRecord r s
  | .register h binds => registerHandler h binds s
  | .unregister h => unregisterHandler h s
  | .readState => readDiagnostics s

end Sys2Proof.Machine
end

