-- ==== Sys2Proof/Machine/Drain.lean ====
section
/-! DEFINITION. The drain loop, one iteration a step (R101), the turns of the host and the core, and the placing of a word where the next step fetches it. -/

namespace Sys2Proof.Machine

/-- Run one fetched word: clear the latch, run the instruction, and advance the counter (R101, R103). -/
def runWord (d : Diw) (s : State) : Result :=
  match exec (decode d) (clearTaken s) with
  | .next s' => .next (finishInstr s')
  | .fault f => .fault f
  | .refused r => .refused r

/-- One move of the core: nothing while idle (R114, R315); while draining, one iteration of the loop (R101): the end of the
drain when `pc >= N`, else the instruction at `pc`. -/
def coreStep (s : State) : Result :=
  match s.mode with
  | .idle => .next s
  | .draining =>
    match fetchWord s with
    | none => .next (endDrain s)
    | some d => runWord d s

/-- One step of the machine: the host's turn if the schedule says so, else the core's (log 4). -/
def machineStep (s : State) : Result :=
  match s.turns with
  | [] => coreStep s
  | .core :: rest => coreStep { s with turns := rest }
  | .call c :: rest => .next (serveCall c { s with turns := rest })
  | .handlersBecome h :: rest => .next { s with turns := rest, handlers := h }

/-- The word of `NOP`. -/
def nopWord : Diw := 0x32

/-- A store with `d` at index `i`, padded with NOP words when it is shorter (log 8). -/
def placeWord (i : Nat) (d : Diw) (store : List Diw) : List Diw :=
  store.take i ++ List.replicate (i - store.length) nopWord ++ d :: store.drop (i + 1)

/-- The state in which the core's next step runs the word `w`: the word at `pc` in the store, the core draining and to move. On
the state at creation this is the acceptance of `execute` (R100; log 8). -/
def placeFetchWord (s : State) (nbits w : Nat) : State :=
  { s with store := placeWord s.pc.toNat (BitVec.ofNat 74 (w % 2 ^ nbits)) s.store, mode := .draining, turns := [] }

end Sys2Proof.Machine
end

