-- ==== Sys2Proof/WellFormed.lean ====
section
/-! DEFINITION. Which instructions are well formed: those that pass the count, kind and register checks of R105, and, for
INVALID, those whose number names no other instruction (R76, R77). -/

namespace Sys2Proof

/-- The number is INVALID or unassigned, 0x33 to 0x3F (R76, R77). -/
def unassignedOpcode (opc : Opc) : Bool := decide (0x33 ≤ opc.toNat)

/-- The check of an instruction as a term. -/
def wellFormed (i : Instr) : Bool :=
  match i with
  | .invalid opc => unassignedOpcode opc
  | i => match signatureOf i with
    | some sig => (checkOperands sig (operandsOf i)).isNone
    | none => false

/-- An instruction whose operands pass the checks of R105 (for INVALID: whose number is unassigned or INVALID's). -/
abbrev Instr.WellFormed (i : Instr) : Prop := wellFormed i = true

/-- An instruction some word decodes to: the operands may fail the checks, but `invalid` stands for a number that names no
other instruction. Every well-formed instruction is one. -/
abbrev Instr.Encodable (i : Instr) : Prop :=
  match i with
  | .invalid opc => unassignedOpcode opc = true
  | _ => True

end Sys2Proof
end

