-- ==== Sys2Proof/Safety.lean ====
section
/-! DEFINITION. The terms the statements use: the invariant of the machine, who moves, what an opcode's encoding and checks
say, which flags an instruction writes (R28), and the answers of the handlers in one INT (R297). -/

namespace Sys2Proof.Machine

/-! ## The invariant -/

/-- While idle, the record of the last drain says where `pc` stands (R30, R34, R104, R114, R284): nothing has run, the drain
ended at an index beyond the store, or it stopped at an instruction of the store. -/
def IdleAgrees (s : State) : Prop :=
  match s.last with
  | .noResult => s.pc = 0 ∧ s.store = []
  | .halted p => s.pc = p ∧ s.store.length ≤ p.toNat
  | .fault _ p => s.pc = p ∧ p.toNat < s.store.length

/-- The machine between two steps. -/
structure Coherent (s : State) : Prop where
  /-- the latch does not outlive an instruction (R35) -/
  latch : s.taken = false
  /-- the entries of the registry are distinct (R33, R289) -/
  distinct : (s.registry.map (fun e => e.handle)).Nodup
  /-- a finite stack is not over its capacity (R61) -/
  stackFits : ∀ n, s.params.stackCapacity = some n → s.stack.length ≤ n
  /-- a finite store is not over its capacity (R100) -/
  storeFits : ∀ n, s.params.storeCapacity = some n → s.store.length ≤ n
  /-- a drain runs only on a store that has an instruction (R100) -/
  drained : s.mode = .draining → s.store ≠ []
  /-- idle, `pc` is where the record of the last drain says -/
  idle : s.mode = .idle → IdleAgrees s

/-! ## Turns -/

/-- The core moves at this step: the schedule is over or says so (log 4). -/
def CoreMoves (s : State) : Prop := s.turns = [] ∨ ∃ rest, s.turns = .core :: rest

/-! ## What an instruction rule says of its encoding and its errors -/

/-- `n` is the opcode number of `mk`: every word with that OPC is this instruction on the word's operands (R76). -/
def HasOpcode (n : Opc) (mk : Operands → Instr) : Prop :=
  ∀ d : Diw, diwOpc d = n → decode d = mk (decodeOperands d)

/-- The checks of R105 against this signature come first: a failed one is the error the instruction raises, whatever the state. -/
def ChecksFirst (sig : List SlotKind) (mk : Operands → Instr) : Prop :=
  ∀ o e s, checkOperands sig o = some e → exec (mk o) s = .next (raiseOperandError e s)

/-- Slot `k` of the operands is of a kind the signature does not allow (check 3 of R282). -/
def BadKindAt (sig : List SlotKind) (l : List Operand) (k : Nat) : Prop :=
  ∃ t a, sig[k]? = some t ∧ l[k]? = some a ∧ kindAllowed t a = false

/-- Slot `k` of the operands is a register with an unresolved code (check 4 of R282). -/
def BadCodeAt (l : List Operand) (k : Nat) : Prop :=
  ∃ code, l[k]? = some (.reg code) ∧ resolveCode code = none

/-- The bits of a word that its instruction depends on: OPC alone for a number that names no instruction (R267), else OPC, NOPS
and the slots below NOPS (R80). -/
def significantBits (d : Diw) : Diw :=
  if 0x33 ≤ (diwOpc d).toNat then 0x3F
  else if diwNops d = 0 then 0xFF
  else if diwNops d = 1 then 0x3FFFFFFFDFF
  else BitVec.allOnes 74

/-- The operands `dst, src` of a register id and a register id or immediate. -/
def dstSrc (d : RegId) (src : Src) : Operands := .two (.reg (regCode d)) (srcOperand src)

/-- The one operand `dst`. -/
def dstOnly (d : RegId) : Operands := .one (.reg (regCode d))

/-- The one operand `src`, a register id or immediate. -/
def srcOnly (src : Src) : Operands := .one (srcOperand src)

/-- The rule of a conditional jump (R223): its number, its checks, and the transfer exactly when the condition holds. -/
def JumpsWhen (n : Opc) (mk : Operands → Instr) (c : FlagBits → Bool) : Prop :=
  HasOpcode n mk ∧ ChecksFirst [.regImm] mk ∧
    ∀ src s, exec (mk (srcOnly src)) s =
      .next (if c s.flags = true then { s with pc := srcVal src s.regs, taken := true } else s)

/-- From `t`, the jump `mk` to `tgt` is taken exactly when `p` holds, and changes nothing else. -/
def TakenExactly (mk : Operands → Instr) (tgt : Src) (t : State) (p : Bool) : Prop :=
  exec (mk (srcOnly tgt)) t = .next (if p = true then { t with pc := srcVal tgt t.regs, taken := true } else t)

/-! ## Which flags an instruction may write (R28) -/

/-- The six flags by name. -/
inductive FlagName where
  | cf | pf | af | zf | sf | of
  deriving DecidableEq, Repr

/-- The value of a flag. -/
def flagValue (n : FlagName) (f : FlagBits) : Bool :=
  match n with
  | .cf => f.cf
  | .pf => f.pf
  | .af => f.af
  | .zf => f.zf
  | .sf => f.sf
  | .of => f.of

/-- The flags an instruction names in its "Flags written" line (the table of R28). -/
def flagsWritten (i : Instr) : List FlagName :=
  match i with
  | .add _ | .sub _ | .cmp _ => [.cf, .zf, .sf, .of]
  | .mul _ => [.cf, .of]
  | .and _ | .or _ | .xor _ => [.cf, .pf, .zf, .sf, .of]
  | .sal _ | .shl _ | .sar _ | .shr _ => [.cf, .pf, .zf, .sf, .of]
  | .mov _ | .div _ | .inc _ | .dec _ | .not _ | .push _ | .pop _ | .jmp _ | .je _ | .jz _ | .jne _ | .jnz _
  | .ja _ | .jnbe _ | .jae _ | .jnb _ | .jb _ | .jnae _ | .jbe _ | .jna _ | .jg _ | .jnle _ | .jge _
  | .jnl _ | .jl _ | .jnge _ | .jle _ | .jng _ | .jc _ | .jnc _ | .jo _ | .jno _ | .js _ | .jns _ | .jp _
  | .jpe _ | .jnp _ | .jpo _ | .int _ | .nop _ | .invalid _ => []

/-- The instructions that may write `pc`: JMP and the conditional jumps (R102), numbers 0x11 to 0x2F (R76). -/
def isJump (i : Instr) : Bool := decide (0x11 ≤ (opcodeNumber i).toNat) && decide ((opcodeNumber i).toNat ≤ 0x2F)

/-- PUSH and POP, the instructions that reach the operand stack (R32). -/
def isStackInstr (i : Instr) : Bool :=
  match i with
  | .push _ | .pop _ => true
  | _ => false

/-! ## The handlers in one INT (R293 to R297) -/

/-- The bank after a list of writes, when every code resolves (R294). -/
def WritesGive (writes : List (Word × Word)) (g g' : RegBank) : Prop :=
  match writes with
  | [] => g' = g
  | w :: rest => ∃ id, resolveCode w.1 = some id ∧ WritesGive rest (setReg id w.2 g) g'

/-- Every handler of the list, called in order with the event built from the registers at its call, returns without failing,
its writes turning `g` into `g'` (R293, R294, R298). -/
def HandlersGive (table : List HandlerRule) (id : Word) (l : List Registration) (g g' : RegBank) : Prop :=
  match l with
  | [] => g' = g
  | e :: rest =>
    ∃ r g1, handlerAnswer table e.handle ⟨id, g⟩ = .returns r ∧ r.failed = false ∧ WritesGive r.writes g g1 ∧
      HandlersGive table id rest g1 g'

/-- Some handler of the list, at a position counted from `j`, ends the calls in an error that leaves `g'`: the handlers before it
returned without failing, and then its writes are all made and it failed (HandlerFault), or they are made up to the first one
with an unresolved code (RegisterError) (R294, R296, R297). -/
def HandlersStop (table : List HandlerRule) (id : Word) (l : List Registration) (j : Nat) (g g' : RegBank)
    (kind : ErrorKind) (detail : ErrorDetail) : Prop :=
  ∃ before e after g1 r, l = before ++ e :: after ∧ HandlersGive table id before g g1 ∧
    handlerAnswer table e.handle ⟨id, g1⟩ = .returns r ∧
    ((WritesGive r.writes g1 g' ∧ r.failed = true ∧ kind = .handlerFault ∧ detail = .handler (j + before.length)) ∨
      ∃ done code v more, r.writes = done ++ (code, v) :: more ∧ WritesGive done g1 g' ∧ resolveCode code = none ∧
        kind = .registerError ∧ detail = .handlerWrite (j + before.length) code)

end Sys2Proof.Machine
end

