-- ==== Sys2Proof/Certificates/Slice0/Obligations.lean ====
section
/-! DEFINITION. The statements for the provers. Each docstring names the rule or the section of spec/ it rests on; where a
clause rests on a decision or an inference the spec marks as its own, or on a choice of the model, it says so. An equation
`exec i s = .next { s with … }` is at once the result, the completion and the frame of the instruction: every part of the state
not named after `with` is unchanged. -/

open Sys2Proof Sys2Proof.Machine

/-! ## Registers and the packed flags -/

/-- R21: the 24 ids with their family, lowest bit and width, and no other id. -/
def Obligations.RegisterIdsNameTheirBitRanges : Prop :=
  let table : List (RegId × Family × Nat × Nat) :=
      [(.eax, .eax, 0, 32), (.ax, .eax, 0, 16), (.ah, .eax, 8, 8), (.al, .eax, 0, 8),
       (.ebx, .ebx, 0, 32), (.bx, .ebx, 0, 16), (.bh, .ebx, 8, 8), (.bl, .ebx, 0, 8),
       (.ecx, .ecx, 0, 32), (.cx, .ecx, 0, 16), (.ch, .ecx, 8, 8), (.cl, .ecx, 0, 8),
       (.edx, .edx, 0, 32), (.dx, .edx, 0, 16), (.dh, .edx, 8, 8), (.dl, .edx, 0, 8),
       (.esi, .esi, 0, 32), (.si, .esi, 0, 16), (.edi, .edi, 0, 32), (.di, .edi, 0, 16),
       (.esp, .esp, 0, 32), (.sp, .esp, 0, 16), (.ebp, .ebp, 0, 32), (.bp, .ebp, 0, 16)]
  (∀ id, ∃ row ∈ table, row.1 = id) ∧
  ∀ row ∈ table, familyOf row.1 = row.2.1 ∧ viewLo (viewOf row.1) = row.2.2.1 ∧ viewWidth (viewOf row.1) = row.2.2.2

/-- R22: reading a view gives its bit slice, zero-extended, for every id and bit; an unresolved code in a register slot is a
RegisterError instead. -/
def Obligations.ReadingAViewGivesItsSlice : Prop :=
  (∀ (id : RegId) (g : RegBank) (k : Nat),
    (getReg id g).getLsbD k =
      (decide (k < viewWidth (viewOf id)) && (readFamily (familyOf id) g).getLsbD (viewLo (viewOf id) + k))) ∧
  ∀ (slot : Nat) (code : Word), resolveCode code = none → takeCode slot code = .error (.register slot)

/-- R23: writing a view changes exactly its bit range of the owning word, to the low bits of the value; every other bit of that
word and every other family keeps its value. An unresolved code in a register slot is a RegisterError instead. -/
def Obligations.WritingAViewChangesOnlyItsSlice : Prop :=
  (∀ (id : RegId) (v : Word) (g : RegBank) (f : Family) (k : Nat),
    (readFamily f (setReg id v g)).getLsbD k =
      if f = familyOf id ∧ viewLo (viewOf id) ≤ k ∧ k < viewLo (viewOf id) + viewWidth (viewOf id)
      then v.getLsbD (k - viewLo (viewOf id)) else (readFamily f g).getLsbD k) ∧
  ∀ (slot : Nat) (code : Word), resolveCode code = none → takeCode slot code = .error (.register slot)

/-- 30_encoding.md section 2 (the code numbers are the spec's decision D14): a code resolves to an id exactly when it is that
id's code, `4 f + v` with `f` the family's index and `v` the view's; every code from 0x20 up is unresolved. -/
def Obligations.RegisterCodesResolveByTheTable : Prop :=
  (∀ (code : Word) (id : RegId), resolveCode code = some id ↔ code = regCode id) ∧
  (∀ id : RegId, (regCode id).toNat =
    4 * [Family.eax, .ebx, .ecx, .edx, .esi, .edi, .esp, .ebp].idxOf (familyOf id) +
      [View.full, .low16, .high8, .low8].idxOf (viewOf id)) ∧
  ∀ code : Word, 0x20 ≤ code.toNat → resolveCode code = none

/-- 10_state.md section 2 (that the other bits read 0 is the spec's decision D16): the packed flags word. -/
def Obligations.PackedFlagsHaveTheSixBits : Prop :=
  ∀ (f : FlagBits) (k : Nat), (packFlags f).getLsbD k =
    if k = 0 then f.cf else if k = 2 then f.pf else if k = 4 then f.af else if k = 6 then f.zf
    else if k = 7 then f.sf else if k = 11 then f.of else false

/-! ## Encoding -/

/-- 30_encoding.md section 1 (the layout is the spec's decision D15): where each field of a word lies, and that packing six fields
puts each in its place. -/
def Obligations.WordFieldsLieWhereTheLayoutSays : Prop :=
  (∀ (d : Diw) (k : Nat),
    (diwOpc d).getLsbD k = (decide (k < 6) && d.getLsbD k) ∧ (diwNops d).getLsbD k = (decide (k < 2) && d.getLsbD (6 + k)) ∧
    diwT0 d = d.getLsbD 8 ∧ diwT1 d = d.getLsbD 9 ∧
    (diwV0 d).getLsbD k = (decide (k < 32) && d.getLsbD (10 + k)) ∧
    (diwV1 d).getLsbD k = (decide (k < 32) && d.getLsbD (42 + k))) ∧
  ∀ d : Diw, packFields (diwOpc d) (diwNops d) (diwT0 d) (diwT1 d) (diwV0 d) (diwV1 d) = d

/-- 30_encoding.md sections 1 to 3 (decisions D13 to D15): decoding the word of a well-formed instruction gives it back, with
every operand; and so it does for an instruction whose operands fail the checks, but not for an `invalid` with an assigned
number. -/
def Obligations.DecodingAnEncodedInstructionGivesItBack : Prop :=
  (∀ i : Instr, i.WellFormed → decode (encode i) = i) ∧ ∀ i : Instr, i.Encodable → decode (encode i) = i

/-- 30_encoding.md, the ignored bits (R77, R80; decisions D13, D15): encoding what a word decodes to gives the word with
these bits cleared and every other kept: all but OPC where the number is INVALID's or unassigned, else the slots at or
beyond NOPS. With NOPS = 3 both slots are below NOPS and are kept, although no rule reads them (that `Operands.many` holds
them is log 11, DEDUCED). -/
def Obligations.EncodingADecodedWordClearsTheIgnoredBits : Prop :=
  ∀ d : Diw, encode (decode d) = d &&& significantBits d

/-- 95_test_vectors.md, DIW encodings, one word at least for each family: each decodes to the instruction it stands for. -/
def Obligations.SampleWordsDecode : Prop :=
  decode 0x0000003FC0000000D80 = .mov (dstSrc .al (.imm 0xFF)) ∧
  decode 0x3FFFFFFFC0000000D81 = .add (dstSrc .al (.imm 0xFFFFFFFF)) ∧
  decode 0x0000000000000002144 = .div (srcOnly (.reg .ecx)) ∧
  decode 0x000000000000000054A = .not (dstOnly .ax) ∧
  decode 0x00000002C000000038C = .sar (dstSrc .eax (.reg .cl)) ∧
  decode 0x000000003FFFFFFFC4F = .push (srcOnly (.imm 0xFFFFFFFF)) ∧
  decode 0x0000000000000007151 = .jmp (srcOnly (.reg .ebp)) ∧
  decode 0x000000003FFFFFFFC6F = .jpo (srcOnly (.imm 0xFFFFFFFF)) ∧
  decode 0x00000000000000021B0 = .cmp (dstSrc .ecx (.imm 0)) ∧
  decode 0x0000000000000008471 = .int (.one (.imm 0x21)) ∧
  decode 0x0000000000000000032 = .nop .zero ∧
  decode 0x000000000000000003F = .invalid 0x3F

/-- 30_encoding.md section 1 and the boundary (decisions D15, D34): packing a decoded record fails exactly when an operand
is a floating-point literal, in any place, the third or a later one too (that this holds in a place the word does not keep
is log 14, DEDUCED); otherwise the word has the record's opcode, the operand count saturated at 3, and the first two
operands in its slots. -/
def Obligations.PackedRecordsKeepTheirOperands : Prop :=
  ∀ r : InstrRecord,
    (packRecord r = none ↔ RecordOperand.float ∈ r.operands) ∧
    ∀ d, packRecord r = some d →
      diwOpc d = r.opc ∧ (diwNops d).toNat = min r.operands.length 3 ∧
      ∀ k a, k < 2 → r.operands[k]? = some a → (presentOperands (decodeOperands d))[k]? = packOperand a

/-! ## Checks before execution and errors -/

/-- 40_execution_cycle.md section 2 (the order is the spec's decision D10): the checks report the first error, the count before
the kinds, the kinds before the register codes, slot 0 before slot 1. -/
def Obligations.ChecksReportTheFirstError : Prop :=
  ∀ (sig : List SlotKind) (o : Operands),
    (∀ n, checkOperands sig o = some (.arity n) ↔ operandCount o ≠ sig.length ∧ n = operandCount o) ∧
    (∀ k, checkOperands sig o = some (.kind k) ↔
      operandCount o = sig.length ∧ BadKindAt sig (presentOperands o) k ∧ ∀ j, j < k → ¬ BadKindAt sig (presentOperands o) j) ∧
    ∀ k, checkOperands sig o = some (.register k) ↔
      operandCount o = sig.length ∧ (∀ j, ¬ BadKindAt sig (presentOperands o) j) ∧
        BadCodeAt (presentOperands o) k ∧ ∀ j, j < k → ¬ BadCodeAt (presentOperands o) j

/-- 40_execution_cycle.md section 2 and 60_exceptions.md sections 1 and 2 (decisions D10, D11, D12): an instruction whose
operands fail a check of its signature raises that error, with its detail, and does nothing else: `pc` stays, the record and the
reply name the error, the drain is over. -/
def Obligations.AFailedCheckIsRaisedAndNothingElseHappens : Prop :=
  ∀ (i : Instr) (sig : List SlotKind) (s : State), signatureOf i = some sig →
    (∀ n, checkOperands sig (operandsOf i) = some (.arity n) → exec i s = .next
      { s with last := .fault .operandArity s.pc, mode := .idle, reply := some (.fault .operandArity s.pc (.count n)) }) ∧
    (∀ k, checkOperands sig (operandsOf i) = some (.kind k) → exec i s = .next
      { s with last := .fault .operandKind s.pc, mode := .idle, reply := some (.fault .operandKind s.pc (.slot k)) }) ∧
    ∀ k, checkOperands sig (operandsOf i) = some (.register k) → exec i s = .next
      { s with last := .fault .registerError s.pc, mode := .idle, reply := some (.fault .registerError s.pc (.slot k)) }

/-- R285, with R294 and R296 (decisions D18, D19) for the writes that stay; that `pc` stays is D12, the detail is D11, and that
the error is a next state with the record, the drain status and the reply written is log 1 (R284). Errors are precise. Where an
instruction that runs in a drain ends it, it has changed nothing but the registers, the record, the drain status and the reply.
The registers keep their values, except for an INT whose id some handler binds: there they are what the handlers before the one
that ended the INT wrote, and then that handler's own writes, all of them or those before the first unresolved code. -/
def Obligations.AnErrorCommitsNothingButHandlerWrites : Prop :=
  ∀ (i : Instr) (s t : State), s.mode = .draining → exec i s = .next t → t.mode = .idle →
    ∃ kind detail,
      t = { s with regs := t.regs, last := .fault kind s.pc, mode := .idle, reply := some (.fault kind s.pc detail) } ∧
      ((∀ id, i = .int (.one (.imm id)) → ∀ x ∈ s.registry, id ∉ x.binds) → t.regs = s.regs) ∧
      ∀ id, i = .int (.one (.imm id)) → (∃ x ∈ s.registry, id ∈ x.binds) →
        HandlersStop s.handlers id s.registry 0 s.regs t.regs kind detail

/-- R286 and R339 (the spec's decisions D12 and D35, and an inference it marks as its own): the errors that the handlers or the
registry do not cause recur; they are excluded by kind (UnhandledInterrupt, HandlerFault) and by detail (RegisterError of a
handler's write, D11), so that an INT's own OperandArity and OperandKind are among them. When a step of a drain ends in such an
error, then after any accepted request, whatever the host has done to the registry and its handlers, the core's next step ends
in the same error with the same detail at the same index, with the registers, flags and stack as they were. -/
def Obligations.AnErrorOtherThanFromHandlersRecurs : Prop :=
  ∀ (s t : State) (d : Diw) (kind : ErrorKind) (p : Word) (detail : ErrorDetail) (registry : List Registration)
      (handlers : List HandlerRule),
    s.turns = [] → s.mode = .draining → step s = .next t →
    t.mode = .idle → t.last = .fault kind p → t.reply = some (.fault kind p detail) →
    kind ≠ .unhandledInterrupt → kind ≠ .handlerFault → (∀ j code, detail ≠ .handlerWrite j code) →
    (∀ n, t.params.storeCapacity = some n → t.store.length < n) →
    ∃ u, step (serveCall (.execute d) { t with registry := registry, handlers := handlers }) = .next u ∧
      u.mode = .idle ∧ u.last = .fault kind p ∧ u.reply = some (.fault kind p detail) ∧ u.pc = p ∧
      u.regs = s.regs ∧ u.flags = s.flags ∧ u.stack = s.stack

/-! ## Data movement, arithmetic, logic -/

/-- R140: MOV. Number: D13; order of the checks and what a failed one leaves: D10 to D12. -/
def Obligations.MovCopiesTheSourceValue : Prop :=
  HasOpcode 0x00 .mov ∧ ChecksFirst [.reg, .regImm] .mov ∧
  ∀ (d : RegId) (src : Src) (s : State),
    exec (.mov (dstSrc d src)) s = .next { s with regs := setReg d (srcVal src s.regs) s.regs }

/-- R150: ADD. Number: D13; order of the checks and what a failed one leaves: D10 to D12. -/
def Obligations.AddWritesTheSumAndItsFlags : Prop :=
  HasOpcode 0x01 .add ∧ ChecksFirst [.reg, .regImm] .add ∧
  ∀ (d : RegId) (src : Src) (s : State),
    let a := getReg d s.regs
    let b := srcVal src s.regs
    let r := BitVec.ofNat 32 (a.toNat + b.toNat)
    exec (.add (dstSrc d src)) s = .next { s with
      regs := setReg d r s.regs
      flags := { s.flags with
        cf := decide (0xFFFFFFFF < a.toNat + b.toNat)
        of := decide (a.getLsbD 31 = b.getLsbD 31 ∧ r.getLsbD 31 ≠ a.getLsbD 31)
        zf := decide (r = 0)
        sf := r.getLsbD 31 } }

/-- R151: SUB, whose carry says "no borrow". Number: D13; order of the checks and what a failed one leaves: D10 to D12. -/
def Obligations.SubWritesTheDifferenceAndItsFlags : Prop :=
  HasOpcode 0x02 .sub ∧ ChecksFirst [.reg, .regImm] .sub ∧
  ∀ (d : RegId) (src : Src) (s : State),
    let a := getReg d s.regs
    let b := srcVal src s.regs
    let r := BitVec.ofInt 32 (a.toNat - b.toNat)
    exec (.sub (dstSrc d src)) s = .next { s with
      regs := setReg d r s.regs
      flags := { s.flags with
        cf := decide (b.toNat ≤ a.toNat)
        of := decide (a.getLsbD 31 ≠ b.getLsbD 31 ∧ r.getLsbD 31 ≠ a.getLsbD 31)
        zf := decide (r = 0)
        sf := r.getLsbD 31 } }

/-- R152: MUL (that EDX keeps its value is the spec's decision D33). Number: D13; order of the checks and what a failed one
leaves: D10 to D12. -/
def Obligations.MulWritesTheLowProductWord : Prop :=
  HasOpcode 0x03 .mul ∧ ChecksFirst [.regImm] .mul ∧
  ∀ (src : Src) (s : State),
    let p := s.regs.eax.toNat * (srcVal src s.regs).toNat
    exec (.mul (srcOnly src)) s = .next { s with
      regs := { s.regs with eax := BitVec.ofNat 32 p }
      flags := { s.flags with cf := decide (p / 2 ^ 32 ≠ 0), of := decide (p / 2 ^ 32 ≠ 0) } }

/-- R153: DIV by a nonzero divisor completes with the quotient and no flag; by zero it raises ArithmeticError and changes
nothing else (that EDX keeps its value is the spec's decision D33, that `pc` stays is D12). Number: D13; order of the checks
and what a failed one leaves: D10 to D12. -/
def Obligations.DivWritesTheQuotientOrRaises : Prop :=
  HasOpcode 0x04 .div ∧ ChecksFirst [.regImm] .div ∧
  (∀ (src : Src) (s : State), srcVal src s.regs ≠ 0 →
    exec (.div (srcOnly src)) s = .next { s with
      regs := { s.regs with eax := BitVec.ofNat 32 (s.regs.eax.toNat / (srcVal src s.regs).toNat) } }) ∧
  ∀ (src : Src) (s : State), srcVal src s.regs = 0 →
    exec (.div (srcOnly src)) s = .next { s with
      last := .fault .arithmeticError s.pc, mode := .idle, reply := some (.fault .arithmeticError s.pc .nothing) }

/-- R154, R155: INC and DEC. Number: D13; order of the checks and what a failed one leaves: D10 to D12. -/
def Obligations.IncAndDecStepTheDestination : Prop :=
  HasOpcode 0x05 .inc ∧ ChecksFirst [.reg] .inc ∧ HasOpcode 0x06 .dec ∧ ChecksFirst [.reg] .dec ∧
  ∀ (d : RegId) (s : State),
    exec (.inc (dstOnly d)) s =
      .next { s with regs := setReg d (BitVec.ofNat 32 ((getReg d s.regs).toNat + 1)) s.regs } ∧
    exec (.dec (dstOnly d)) s =
      .next { s with regs := setReg d (BitVec.ofInt 32 ((getReg d s.regs).toNat - 1)) s.regs }

/-- R180, R181, R182: AND, OR and XOR. Number: D13; order of the checks and what a failed one leaves: D10 to D12. -/
def Obligations.LogicWritesTheResultAndClearsCarryAndOverflow : Prop :=
  HasOpcode 0x07 .and ∧ HasOpcode 0x08 .or ∧ HasOpcode 0x09 .xor ∧
  ChecksFirst [.reg, .regImm] .and ∧ ChecksFirst [.reg, .regImm] .or ∧ ChecksFirst [.reg, .regImm] .xor ∧
  ∀ (d : RegId) (src : Src) (s : State),
    let a := getReg d s.regs
    let b := srcVal src s.regs
    let result : Word → State := fun r => { s with
      regs := setReg d r s.regs
      flags := { s.flags with
        zf := decide (r = 0), sf := r.getLsbD 31, pf := decide (popcountLow8 r % 2 = 0), cf := false, of := false } }
    exec (.and (dstSrc d src)) s = .next (result (a &&& b)) ∧
    exec (.or (dstSrc d src)) s = .next (result (a ||| b)) ∧
    exec (.xor (dstSrc d src)) s = .next (result (a ^^^ b))

/-- R183: NOT. Number: D13; order of the checks and what a failed one leaves: D10 to D12. -/
def Obligations.NotComplementsTheView : Prop :=
  HasOpcode 0x0A .not ∧ ChecksFirst [.reg] .not ∧
  ∀ (d : RegId) (s : State),
    exec (.not (dstOnly d)) s = .next { s with regs := setReg d (~~~(getReg d s.regs)) s.regs }

/-! ## Shifts -/

/-- R190, R191, R192 (the carry of a shift by more than one bit is an inference the spec marks as its own): SAL and SHL, for
every count; with a masked count of 0 nothing changes. Number: D13; order of the checks and what a failed one leaves: D10 to
D12. -/
def Obligations.LeftShiftsAreByTheMaskedCount : Prop :=
  HasOpcode 0x0B .sal ∧ HasOpcode 0x0D .shl ∧ ChecksFirst [.reg, .regImm] .sal ∧ ChecksFirst [.reg, .regImm] .shl ∧
  ∀ (d : RegId) (src : Src) (s : State),
    let a := getReg d s.regs
    let n := (srcVal src s.regs).toNat % 32
    let r := BitVec.ofNat 32 (a.toNat * 2 ^ n)
    let t : State := if n = 0 then s else { s with
      regs := setReg d r s.regs
      flags := { s.flags with
        cf := a.getLsbD (32 - n), of := decide (r.getLsbD 31 ≠ r.getLsbD 30)
        zf := decide (r = 0), sf := r.getLsbD 31, pf := decide (popcountLow8 r % 2 = 0) } }
    exec (.sal (dstSrc d src)) s = .next t ∧ exec (.shl (dstSrc d src)) s = .next t

/-- R190, R193 (that a masked count of 0 has no effect is the spec's decision D6): SAR. Number: D13; order of the checks and
what a failed one leaves: D10 to D12. -/
def Obligations.SarShiftsInTheSign : Prop :=
  HasOpcode 0x0C .sar ∧ ChecksFirst [.reg, .regImm] .sar ∧
  ∀ (d : RegId) (src : Src) (s : State),
    let a := getReg d s.regs
    let n := (srcVal src s.regs).toNat % 32
    let r := BitVec.ofInt 32 (a.toInt / 2 ^ n)
    exec (.sar (dstSrc d src)) s = .next (if n = 0 then s else { s with
      regs := setReg d r s.regs
      flags := { s.flags with
        cf := a.getLsbD (n - 1), of := false
        zf := decide (r = 0), sf := r.getLsbD 31, pf := decide (popcountLow8 r % 2 = 0) } })

/-- R190, R194 (that a masked count of 0 has no effect is the spec's decision D6): SHR, whose overflow is the original bit
31. Number: D13; order of the checks and what a failed one leaves: D10 to D12. -/
def Obligations.ShrShiftsInZerosAndKeepsBit31AsOverflow : Prop :=
  HasOpcode 0x0E .shr ∧ ChecksFirst [.reg, .regImm] .shr ∧
  ∀ (d : RegId) (src : Src) (s : State),
    let a := getReg d s.regs
    let n := (srcVal src s.regs).toNat % 32
    let r := BitVec.ofNat 32 (a.toNat / 2 ^ n)
    exec (.shr (dstSrc d src)) s = .next (if n = 0 then s else { s with
      regs := setReg d r s.regs
      flags := { s.flags with
        cf := a.getLsbD (n - 1), of := a.getLsbD 31
        zf := decide (r = 0), sf := r.getLsbD 31, pf := decide (popcountLow8 r % 2 = 0) } })

/-! ## Stack -/

/-- R210 (StackOverflow on a finite stack is the spec's decision D21): PUSH puts the value on top while the stack has room,
and raises StackOverflow, changing nothing else, when a finite stack is full. Number: D13; order of the checks and what a
failed one leaves: D10 to D12. -/
def Obligations.PushPutsTheValueOnTopOrRaises : Prop :=
  HasOpcode 0x0F .push ∧ ChecksFirst [.regImm] .push ∧
  (∀ (src : Src) (s : State), (∀ n, s.params.stackCapacity = some n → s.stack.length < n) →
    exec (.push (srcOnly src)) s = .next { s with stack := srcVal src s.regs :: s.stack }) ∧
  ∀ (src : Src) (s : State) (n : Nat), s.params.stackCapacity = some n → n ≤ s.stack.length →
    exec (.push (srcOnly src)) s = .next { s with
      last := .fault .stackOverflow s.pc, mode := .idle, reply := some (.fault .stackOverflow s.pc .nothing) }

/-- R211 and R61: POP writes the removed top into the destination view; on an empty stack it raises StackUnderflow and
changes nothing else. `Top()`, the peek that no instruction uses, gives the same value, or raises the same error. Number:
D13; order of the checks and what a failed one leaves: D10 to D12. -/
def Obligations.PopTakesTheTopOrRaises : Prop :=
  HasOpcode 0x10 .pop ∧ ChecksFirst [.reg] .pop ∧
  (∀ (d : RegId) (v : Word) (rest : List Word) (s : State), s.stack = v :: rest →
    exec (.pop (dstOnly d)) s = .next { s with regs := setReg d v s.regs, stack := rest }) ∧
  (∀ (d : RegId) (s : State), s.stack = [] →
    exec (.pop (dstOnly d)) s = .next { s with
      last := .fault .stackUnderflow s.pc, mode := .idle, reply := some (.fault .stackUnderflow s.pc .nothing) }) ∧
  (∀ (v : Word) (rest : List Word) (s : State) (rule : Word → Result), s.stack = v :: rest → stackTop s rule = rule v) ∧
  ∀ (s : State) (rule : Word → Result), s.stack = [] →
    stackTop s rule = .next { s with
      last := .fault .stackUnderflow s.pc, mode := .idle, reply := some (.fault .stackUnderflow s.pc .nothing) }

/-- 45_stack.md, corner cases of POP (source section 8): PUSH then POP of the same register view restores the registers and the
stack, and touches no flag, whatever the view (ESP's included). -/
def Obligations.PushThenPopRestoresTheView : Prop :=
  ∀ (d : RegId) (s : State), (∀ n, s.params.stackCapacity = some n → s.stack.length < n) →
    ∃ t, exec (.push (srcOnly (.reg d))) s = .next t ∧ exec (.pop (dstOnly d)) t = .next s

/-! ## Control flow -/

/-- R222: JMP transfers to the absolute index its operand gives, whatever the length of the store. Number: D13; order of the
checks and what a failed one leaves: D10 to D12. -/
def Obligations.JmpTransfersAlways : Prop :=
  HasOpcode 0x11 .jmp ∧ ChecksFirst [.regImm] .jmp ∧
  ∀ (src : Src) (s : State), exec (.jmp (srcOnly src)) s = .next { s with pc := srcVal src s.regs, taken := true }

/-- R224, R225, R228, R229, R236, R237, R240, R241: the conditional jumps whose conditions the source gives. Number: D13;
order of the checks and what a failed one leaves: D10 to D12. -/
def Obligations.JumpsWithTheSourcesConditions : Prop :=
  JumpsWhen 0x12 .je (fun f => f.zf) ∧ JumpsWhen 0x13 .jz (fun f => f.zf) ∧
  JumpsWhen 0x16 .ja (fun f => decide (f.cf = false ∧ f.zf = false)) ∧
  JumpsWhen 0x17 .jnbe (fun f => decide (f.cf = false ∧ f.zf = false)) ∧
  JumpsWhen 0x1E .jg (fun f => decide (f.zf = false ∧ f.sf = f.of)) ∧
  JumpsWhen 0x1F .jnle (fun f => decide (f.zf = false ∧ f.sf = f.of)) ∧
  JumpsWhen 0x22 .jl (fun f => decide (f.sf ≠ f.of)) ∧ JumpsWhen 0x23 .jnge (fun f => decide (f.sf ≠ f.of))

/-- 46_control_flow.md, the condition table (the spec's decision D32, from general knowledge): the 22 jumps whose conditions
the source does not give, on ZF and CF, and on SF, OF and PF. Number: D13; order of the checks and what a failed one leaves:
D10 to D12. -/
def Obligations.JumpsWithTheSpecsOwnConditions : Prop :=
  JumpsWhen 0x14 .jne (fun f => decide (f.zf = false)) ∧ JumpsWhen 0x15 .jnz (fun f => decide (f.zf = false)) ∧
  JumpsWhen 0x18 .jae (fun f => decide (f.cf = false)) ∧ JumpsWhen 0x19 .jnb (fun f => decide (f.cf = false)) ∧
  JumpsWhen 0x1A .jb (fun f => f.cf) ∧ JumpsWhen 0x1B .jnae (fun f => f.cf) ∧
  JumpsWhen 0x1C .jbe (fun f => decide (f.cf = true ∨ f.zf = true)) ∧
  JumpsWhen 0x1D .jna (fun f => decide (f.cf = true ∨ f.zf = true)) ∧
  JumpsWhen 0x26 .jc (fun f => f.cf) ∧ JumpsWhen 0x27 .jnc (fun f => decide (f.cf = false)) ∧
  JumpsWhen 0x20 .jge (fun f => decide (f.sf = f.of)) ∧ JumpsWhen 0x21 .jnl (fun f => decide (f.sf = f.of)) ∧
  JumpsWhen 0x24 .jle (fun f => decide (f.zf = true ∨ f.sf ≠ f.of)) ∧
  JumpsWhen 0x25 .jng (fun f => decide (f.zf = true ∨ f.sf ≠ f.of)) ∧
  JumpsWhen 0x28 .jo (fun f => f.of) ∧ JumpsWhen 0x29 .jno (fun f => decide (f.of = false)) ∧
  JumpsWhen 0x2A .js (fun f => f.sf) ∧ JumpsWhen 0x2B .jns (fun f => decide (f.sf = false)) ∧
  JumpsWhen 0x2C .jp (fun f => f.pf) ∧ JumpsWhen 0x2D .jpe (fun f => f.pf) ∧
  JumpsWhen 0x2E .jnp (fun f => decide (f.pf = false)) ∧ JumpsWhen 0x2F .jpo (fun f => decide (f.pf = false))

/-! ## Compare -/

/-- R260: CMP sets the flags of `a - b` with the conventional borrow and stores nothing. Number: D13; order of the checks
and what a failed one leaves: D10 to D12. -/
def Obligations.CmpSetsTheFlagsOfTheDifference : Prop :=
  HasOpcode 0x30 .cmp ∧ ChecksFirst [.reg, .regImm] .cmp ∧
  ∀ (d : RegId) (src : Src) (s : State),
    let a := getReg d s.regs
    let b := srcVal src s.regs
    let r := BitVec.ofInt 32 (a.toNat - b.toNat)
    exec (.cmp (dstSrc d src)) s = .next { s with
      flags := { s.flags with
        cf := decide (a.toNat < b.toNat)
        of := decide (a.getLsbD 31 ≠ b.getLsbD 31 ∧ r.getLsbD 31 ≠ a.getLsbD 31)
        zf := decide (r = 0)
        sf := r.getLsbD 31 } }

/-- 46_control_flow.md, corner cases of every jump on a comparison (the conditions of 22 of the 30 are the spec's decision
D32): right after `CMP a, b` each conditional jump is taken exactly on the relation of `a` and `b` it is named for:
equality, unsigned order, signed order, signed overflow, and the sign of the difference. JP, JPE, JNP and JPO test the PF
that stood before the CMP, which does not write it. -/
def Obligations.AfterCompareEachJumpDecidesItsRelation : Prop :=
  ∀ (d : RegId) (src tgt : Src) (s : State),
    let a := getReg d s.regs
    let b := srcVal src s.regs
    ∃ t, exec (.cmp (dstSrc d src)) s = .next t ∧
      TakenExactly .je tgt t (decide (a = b)) ∧ TakenExactly .jz tgt t (decide (a = b)) ∧
      TakenExactly .jne tgt t (decide (a ≠ b)) ∧ TakenExactly .jnz tgt t (decide (a ≠ b)) ∧
      TakenExactly .ja tgt t (decide (b.toNat < a.toNat)) ∧ TakenExactly .jnbe tgt t (decide (b.toNat < a.toNat)) ∧
      TakenExactly .jae tgt t (decide (b.toNat ≤ a.toNat)) ∧ TakenExactly .jnb tgt t (decide (b.toNat ≤ a.toNat)) ∧
      TakenExactly .jnc tgt t (decide (b.toNat ≤ a.toNat)) ∧
      TakenExactly .jb tgt t (decide (a.toNat < b.toNat)) ∧ TakenExactly .jnae tgt t (decide (a.toNat < b.toNat)) ∧
      TakenExactly .jc tgt t (decide (a.toNat < b.toNat)) ∧
      TakenExactly .jbe tgt t (decide (a.toNat ≤ b.toNat)) ∧ TakenExactly .jna tgt t (decide (a.toNat ≤ b.toNat)) ∧
      TakenExactly .jg tgt t (decide (b.toInt < a.toInt)) ∧ TakenExactly .jnle tgt t (decide (b.toInt < a.toInt)) ∧
      TakenExactly .jge tgt t (decide (b.toInt ≤ a.toInt)) ∧ TakenExactly .jnl tgt t (decide (b.toInt ≤ a.toInt)) ∧
      TakenExactly .jl tgt t (decide (a.toInt < b.toInt)) ∧ TakenExactly .jnge tgt t (decide (a.toInt < b.toInt)) ∧
      TakenExactly .jle tgt t (decide (a.toInt ≤ b.toInt)) ∧ TakenExactly .jng tgt t (decide (a.toInt ≤ b.toInt)) ∧
      TakenExactly .jo tgt t (decide (a.toInt - b.toInt < -2 ^ 31 ∨ 2 ^ 31 ≤ a.toInt - b.toInt)) ∧
      TakenExactly .jno tgt t (decide (-2 ^ 31 ≤ a.toInt - b.toInt ∧ a.toInt - b.toInt < 2 ^ 31)) ∧
      TakenExactly .js tgt t ((a - b).getLsbD 31) ∧ TakenExactly .jns tgt t (!(a - b).getLsbD 31) ∧
      TakenExactly .jp tgt t s.flags.pf ∧ TakenExactly .jpe tgt t s.flags.pf ∧
      TakenExactly .jnp tgt t (!s.flags.pf) ∧ TakenExactly .jpo tgt t (!s.flags.pf)

/-- 46_control_flow.md, corner cases, and 42_arithmetic.md, SUB's carry polarity (the conditions of JNE and of the carry
jumps but JA and JNBE are the spec's decision D32): right after `SUB a, b` the carry jumps mean the opposite of what they
mean after CMP: JB, JNAE and JC are taken when `a >= b`, JAE, JNB, JNC, JA and JNBE when `a < b`, JBE and JNA when `a >= b`;
JE and JNE still decide equality, JG and JL the signed order. -/
def Obligations.AfterSubtractTheCarryJumpsAreInverted : Prop :=
  ∀ (d : RegId) (src tgt : Src) (s : State),
    let a := getReg d s.regs
    let b := srcVal src s.regs
    ∃ t, exec (.sub (dstSrc d src)) s = .next t ∧
      TakenExactly .je tgt t (decide (a = b)) ∧ TakenExactly .jne tgt t (decide (a ≠ b)) ∧
      TakenExactly .ja tgt t (decide (a.toNat < b.toNat)) ∧ TakenExactly .jnbe tgt t (decide (a.toNat < b.toNat)) ∧
      TakenExactly .jae tgt t (decide (a.toNat < b.toNat)) ∧ TakenExactly .jnb tgt t (decide (a.toNat < b.toNat)) ∧
      TakenExactly .jnc tgt t (decide (a.toNat < b.toNat)) ∧
      TakenExactly .jb tgt t (decide (b.toNat ≤ a.toNat)) ∧ TakenExactly .jnae tgt t (decide (b.toNat ≤ a.toNat)) ∧
      TakenExactly .jc tgt t (decide (b.toNat ≤ a.toNat)) ∧
      TakenExactly .jbe tgt t (decide (b.toNat ≤ a.toNat)) ∧ TakenExactly .jna tgt t (decide (b.toNat ≤ a.toNat)) ∧
      TakenExactly .jg tgt t (decide (b.toInt < a.toInt)) ∧ TakenExactly .jl tgt t (decide (a.toInt < b.toInt))

/-! ## Flags -/

/-- R111: the carry and overflow helpers, by the rule's formulas; and the overflow they detect is two's-complement overflow. -/
def Obligations.AddAndSubtractFlagsDetectOverflow : Prop :=
  ∀ a b : Word,
    addCf a b = decide (0xFFFFFFFF < a.toNat + b.toNat) ∧
    addOf a b = decide (a.getLsbD 31 = b.getLsbD 31 ∧ (a + b).getLsbD 31 ≠ a.getLsbD 31) ∧
    subOf a b = decide (a.getLsbD 31 ≠ b.getLsbD 31 ∧ (a - b).getLsbD 31 ≠ a.getLsbD 31) ∧
    addOf a b = decide (a.toInt + b.toInt < -2 ^ 31 ∨ 2 ^ 31 ≤ a.toInt + b.toInt) ∧
    subOf a b = decide (a.toInt - b.toInt < -2 ^ 31 ∨ 2 ^ 31 ≤ a.toInt - b.toInt)

/-- 40_execution_cycle.md section 4 (that ZF and SF are read from the 32-bit result is the spec's decision D5): the result
flags; parity depends on the low byte alone and is the complement of its exclusive or. -/
def Obligations.ResultFlagsReadTheResult : Prop :=
  ∀ r : Word,
    zfOf r = decide (r.toNat = 0) ∧ sfOf r = decide (2 ^ 31 ≤ r.toNat) ∧
    pfOf r = !(r.getLsbD 0 ^^ r.getLsbD 1 ^^ r.getLsbD 2 ^^ r.getLsbD 3 ^^
      r.getLsbD 4 ^^ r.getLsbD 5 ^^ r.getLsbD 6 ^^ r.getLsbD 7)

/-- R29: a flag an instruction does not name in its "Flags written" line (the table of 10_state.md section 2) keeps its value,
whatever the instruction, its operands and its outcome. -/
def Obligations.UnwrittenFlagsKeepTheirValue : Prop :=
  ∀ (i : Instr) (s t : State) (n : FlagName), exec i s = .next t → n ∉ flagsWritten i →
    flagValue n t.flags = flagValue n s.flags

/-- 10_state.md section 2, the access table (an inference the spec marks as its own): no step of the machine changes AF. -/
def Obligations.NoStepChangesTheAuxiliaryFlag : Prop :=
  ∀ s t : State, step s = .next t → t.flags.af = s.flags.af

/-- 95_test_vectors.md L1.1 (the source's property): on a 32-bit register, ADD then SUB of the same immediate restores the
registers, and ZF then says whether the register is 0. -/
def Obligations.AddThenSubRestoresTheRegister : Prop :=
  ∀ (d : RegId) (b : Word) (s : State), viewOf d = .full →
    ∃ t u, exec (.add (dstSrc d (.imm b))) s = .next t ∧ exec (.sub (dstSrc d (.imm b))) t = .next u ∧
      u.regs = s.regs ∧ u.flags.zf = decide (getReg d s.regs = 0)

/-! ## INT, NOP, INVALID -/

/-- 48_interrupt_and_nop.md INT and 60_exceptions.md section 3 (decisions D8, D17, D18, D20, D23): when some registered
handler binds the id, every registered handler is called, in order, each seeing the writes of those before it; when all
return without failing, INT completes with their writes and changes nothing else. Number: D13; order of the checks and what
a failed one leaves: D10 to D12. -/
def Obligations.IntCallsEveryHandlerAndCompletes : Prop :=
  HasOpcode 0x31 .int ∧ ChecksFirst [.imm] .int ∧
  ∀ (id : Word) (s : State) (g : RegBank), (∃ e ∈ s.registry, id ∈ e.binds) →
    HandlersGive s.handlers id s.registry s.regs g →
    exec (.int (.one (.imm id))) s = .next { s with regs := g }

/-- 60_exceptions.md section 3, the bound check (decisions D12, D17): when no registered handler binds the id, INT raises
UnhandledInterrupt before any handler runs, and no register changes. -/
def Obligations.IntWithoutABoundHandlerRaises : Prop :=
  ∀ (id : Word) (s : State), (∀ e ∈ s.registry, id ∉ e.binds) →
    exec (.int (.one (.imm id))) s = .next { s with
      last := .fault .unhandledInterrupt s.pc, mode := .idle
      reply := some (.fault .unhandledInterrupt s.pc (.interrupt id)) }

/-- 60_exceptions.md section 3, the failure policy, the writes and completion (decisions D12, D18, D19; that the stop is a fault
is the model's choice, log 3): the first handler that fails, or that asks for a write to an unresolved code, ends the INT in
HandlerFault or RegisterError; the writes made before stay, and the handlers after it are not called. The first handler that
never returns stops the core for ever. -/
def Obligations.IntStopsAtTheFirstFailingHandler : Prop :=
  ∀ (id : Word) (s : State) (before after : List Registration) (e : Registration) (g g1 : RegBank) (r : HandlerResponse),
    s.registry = before ++ e :: after → (∃ x ∈ s.registry, id ∈ x.binds) →
    HandlersGive s.handlers id before s.regs g →
    (handlerAnswer s.handlers e.handle ⟨id, g⟩ = .returns r → WritesGive r.writes g g1 → r.failed = true →
      exec (.int (.one (.imm id))) s = .next { s with
        regs := g1, last := .fault .handlerFault s.pc, mode := .idle
        reply := some (.fault .handlerFault s.pc (.handler before.length)) }) ∧
    (∀ (done more : List (Word × Word)) (code v : Word), handlerAnswer s.handlers e.handle ⟨id, g⟩ = .returns r →
      r.writes = done ++ (code, v) :: more → WritesGive done g g1 → resolveCode code = none →
      exec (.int (.one (.imm id))) s = .next { s with
        regs := g1, last := .fault .registerError s.pc, mode := .idle
        reply := some (.fault .registerError s.pc (.handlerWrite before.length code)) }) ∧
    (handlerAnswer s.handlers e.handle ⟨id, g⟩ = .neverReturns →
      exec (.int (.one (.imm id))) s = .fault (.handlerNeverReturns before.length))

/-- 60_exceptions.md section 3, what a handler cannot do (decision D18): whatever the handlers answer, INT changes the registers
and, on an error, the record, the drain status and the reply, and nothing else. -/
def Obligations.IntChangesOnlyTheRegistersAndTheOutcome : Prop :=
  ∀ (o : Operands) (s t : State), exec (.int o) s = .next t →
    t = { s with regs := t.regs, last := t.last, mode := t.mode, reply := t.reply }

/-- 48_interrupt_and_nop.md NOP (that it takes no operand is the spec's decision D9). Number: D13; order of the checks and
what a failed one leaves: D10 to D12. -/
def Obligations.NopHasNoEffect : Prop :=
  HasOpcode 0x32 .nop ∧ ChecksFirst [] .nop ∧ ∀ s : State, exec (.nop .zero) s = .next s

/-- 48_interrupt_and_nop.md INVALID (the numbers are the spec's decision D13, the detail is D11): every word whose number is
0x33 to 0x3F is INVALID, whatever its operands, and raises DecodeAmbiguity. -/
def Obligations.InvalidRaisesDecodeAmbiguity : Prop :=
  (∀ d : Diw, 0x33 ≤ (diwOpc d).toNat → decode d = .invalid (diwOpc d)) ∧
  ∀ (opc : Opc) (s : State), exec (.invalid opc) s = .next { s with
    last := .fault .decodeAmbiguity s.pc, mode := .idle
    reply := some (.fault .decodeAmbiguity s.pc (.opcode opc)) }

/-! ## The machine -/

/-- R101 to R103, with the model's turns (log 4): in a drain, when the word at `pc` decodes to an instruction, the core's
step is that instruction run with the latch clear, and then: after an error `pc` stays; after a taken transfer it is the
target; otherwise it goes up by one modulo 2^32 (the width and the wrap are D4). The latch is clear again (that State holds
it and that the end of the instruction clears it is log 6, the model's choice). A stop of the instruction is a stop of the
step (log 3). -/
def Obligations.AStepRunsTheDecodedInstruction : Prop :=
  ∀ (s : State) (d : Diw) (i : Instr), CoreMoves s → s.mode = .draining → s.store[s.pc.toNat]? = some d → decode d = i →
    (∀ t, exec i { s with turns := s.turns.tail, taken := false } = .next t →
      step s = .next { t with
        taken := false
        pc := if t.mode = .draining ∧ t.taken = false then BitVec.ofNat 32 (t.pc.toNat + 1) else t.pc }) ∧
    ∀ f, exec i { s with turns := s.turns.tail, taken := false } = .fault f → step s = .fault f

/-- R104: a drain ends with Halted(pc) when `pc` is not below the length of the store; the record and the reply say so, and
everything else keeps its value for the next request. -/
def Obligations.ADrainEndsBeyondTheStore : Prop :=
  ∀ s : State, CoreMoves s → s.mode = .draining → s.store.length ≤ s.pc.toNat →
    step s = .next { s with
      turns := s.turns.tail, last := .halted s.pc, mode := .idle, reply := some (.halted s.pc) }

/-- R315: between requests the core is idle and keeps all state (the turn that passes is the model's own, log 4). -/
def Obligations.AnIdleCoreKeepsAllState : Prop :=
  ∀ s : State, CoreMoves s → s.mode = .idle → step s = .next { s with turns := s.turns.tail }

/-- 40_execution_cycle.md section 1, Append-and-Drain, and 70_reset_and_hazards.md section 3 (decisions D22, D30; the turn
and the reply are the model's, logs 4 and 5; that a draining core with a full store answers busy is the model's choice, log
13): a request while idle, with room in the store, appends its word and starts the drain; one on a full store or during a
drain has no effect but its refusal. -/
def Obligations.ExecuteAppendsAndDrainsOrIsRefused : Prop :=
  ∀ (s : State) (d : Diw) (rest : List Turn), s.turns = .call (.execute d) :: rest →
    (s.mode = .idle → (∀ n, s.params.storeCapacity = some n → s.store.length < n) →
      step s = .next { s with turns := rest, store := s.store ++ [d], mode := .draining }) ∧
    (∀ n, s.mode = .idle → s.params.storeCapacity = some n → n ≤ s.store.length →
      step s = .next { s with turns := rest, reply := some (.refused .storeFull) }) ∧
    (s.mode = .draining → step s = .next { s with turns := rest, reply := some (.refused .busy) })

/-- 30_encoding.md section 1 (decision D34; log 14; the turn and the reply are logs 4 and 5; that the reply is this one even
during a drain or on a full store is the model's choice, log 13): a submitted record with a floating-point operand is
refused by name, with no effect; any other is the request of its word. -/
def Obligations.FloatingPointOperandsAreRefused : Prop :=
  ∀ (s : State) (r : InstrRecord) (rest : List Turn), s.turns = .call (.submit r) :: rest →
    (RecordOperand.float ∈ r.operands → step s = .next { s with turns := rest, reply := some (.refused .floatOperand) }) ∧
    ∀ d, packRecord r = some d → step s = step { s with turns := .call (.execute d) :: rest }

/-- 60_exceptions.md section 3, register and unregister (decisions D17, D20): a new handle is appended with its ids, a known one
changes nothing; unregistering removes the handle's entry and keeps the others in order. Either may come during a drain. -/
def Obligations.RegistrationKeepsOrderAndHandlesDistinct : Prop :=
  ∀ (s : State) (h : Handle) (binds : List Word) (rest : List Turn),
    (s.turns = .call (.register h binds) :: rest →
      ((∀ e ∈ s.registry, e.handle ≠ h) →
        step s = .next { s with turns := rest, registry := s.registry ++ [⟨h, binds⟩] }) ∧
      ((∃ e ∈ s.registry, e.handle = h) → step s = .next { s with turns := rest })) ∧
    (s.turns = .call (.unregister h) :: rest →
      ∃ l, step s = .next { s with turns := rest, registry := l } ∧ l.Sublist s.registry ∧
        ∀ e, e ∈ l ↔ e ∈ s.registry ∧ e.handle ≠ h)

/-- 60_exceptions.md section 5, the diagnostic read (decision D37): while idle the host gets the registers, the flags and their
packed word, `pc`, N, the store, the stack, the record and the registry, and nothing changes but the reply; during a drain the
read is refused. -/
def Obligations.DiagnosticReadsChangeNothing : Prop :=
  ∀ (s : State) (rest : List Turn), s.turns = .call .readState :: rest →
    (s.mode = .idle → ∃ v : Diagnostics, step s = .next { s with turns := rest, reply := some (.diagnostics v) } ∧
      v.regs = s.regs ∧ v.flags = s.flags ∧ v.packedFlags = packFlags s.flags ∧ v.pc = s.pc ∧ v.length = s.store.length ∧
      v.store = s.store ∧ v.stack = s.stack ∧ v.last = s.last ∧ v.registry = s.registry) ∧
    (s.mode = .draining → step s = .next { s with turns := rest, reply := some (.refused .busy) })

/-- R286 and R5 (the turns and the list are the model's choices, logs 2 and 4; the capacities' form is log 7): the host's own turn
replaces the listed answers of its handlers and changes nothing else; no other step changes them; no step changes the
capacities; and every step uses up one turn. -/
def Obligations.OnlyTheHostsTurnChangesItsHandlers : Prop :=
  (∀ (s : State) (answers : List HandlerRule) (rest : List Turn), s.turns = .handlersBecome answers :: rest →
    step s = .next { s with turns := rest, handlers := answers }) ∧
  ∀ s t : State, step s = .next t →
    ((∀ answers rest, s.turns ≠ .handlersBecome answers :: rest) → t.handlers = s.handlers) ∧
    t.params = s.params ∧ t.turns = s.turns.tail

/-- 70_reset_and_hazards.md section 2 (an inference the spec marks as its own): after a forward jump beyond the end, an accepted
request appends, and the core's next step ends the drain at the same index with nothing run, as long as `pc` is still beyond the
store. -/
def Obligations.AForwardJumpBeyondTheEndDefers : Prop :=
  ∀ (s : State) (d : Diw), s.turns = [] → s.mode = .idle → (∀ n, s.params.storeCapacity = some n → s.store.length < n) →
    s.store.length < s.pc.toNat →
    step (serveCall (.execute d) s) = .next { s with
      store := s.store ++ [d], last := .halted s.pc, mode := .idle, reply := some (.halted s.pc) }

/-- R102 and 60_exceptions.md section 4 (R306), 10_state.md R31 and R32: no instruction writes the program store, the registry,
the parameters or the host's side; only PUSH and POP reach the operand stack; only a jump writes `pc` or sets the latch. -/
def Obligations.NoInstructionWritesWhatIsNotItsOwn : Prop :=
  ∀ (i : Instr) (s t : State), exec i s = .next t →
    t.store = s.store ∧ t.registry = s.registry ∧ t.params = s.params ∧ t.handlers = s.handlers ∧ t.turns = s.turns ∧
    (isStackInstr i = false → t.stack = s.stack) ∧ (isJump i = false → t.pc = s.pc ∧ t.taken = s.taken)

/-- 10_state.md section 3 and 20_memory.md section 4: every step keeps the store as a beginning of the new one, and only an
idle core's host turn makes it longer; during a drain its length is constant. -/
def Obligations.TheStoreIsAppendOnly : Prop :=
  ∀ s t : State, step s = .next t →
    s.store <+: t.store ∧ (t.store ≠ s.store → s.mode = .idle ∧ ∃ c rest, s.turns = .call c :: rest)

/-- 60_exceptions.md, the whole chapter: no step is ever refused, and a step stops the machine only in an INT whose registry
binds its id and some handler of which never returns (log 3). -/
def Obligations.OnlyANeverReturningHandlerStopsTheMachine : Prop :=
  (∀ (s : State) (r : Refusal), step s ≠ .refused r) ∧
  ∀ (s : State) (f : Fault), step s = .fault f →
    ∃ d id j e g, CoreMoves s ∧ s.mode = .draining ∧ s.store[s.pc.toNat]? = some d ∧ decode d = .int (.one (.imm id)) ∧
      (∃ x ∈ s.registry, id ∈ x.binds) ∧ f = .handlerNeverReturns j ∧ s.registry[j]? = some e ∧
      HandlersGive s.handlers id (s.registry.take j) s.regs g ∧ handlerAnswer s.handlers e.handle ⟨id, g⟩ = .neverReturns

/-- 10_state.md (R30, R33, R34, R35), 20_memory.md R61, 40_execution_cycle.md R100 and R104, 60_exceptions.md R284 and R289 (the
capacities are decisions D21 and D22; that State holds the latch between instructions is the model's choice, log 6): from EVERY
coherent state, a step that answers a next state answers a coherent one. -/
def Obligations.EveryStepKeepsCoherence : Prop :=
  ∀ s t : State, Coherent s → step s = .next t → Coherent t

/-- The state at creation (R36, R331; the values are the spec's decision D3) is coherent. That the latch is false there is
the model's choice (log 6). -/
def Obligations.TheCreationStateIsCoherent : Prop := Coherent State.reset

/-- 10_state.md section 6 (the values are the spec's decision D3, the default capacities its D21 and D22): every piece of state at
creation. The model's own fields are not part of the statement. -/
def Obligations.CreationValues : Prop :=
  (∀ f, readFamily f State.reset.regs = 0) ∧ (∀ id, getReg id State.reset.regs = 0) ∧
  (∀ n, flagValue n State.reset.flags = false) ∧ packFlags State.reset.flags = 0 ∧
  State.reset.pc = 0 ∧ State.reset.store = [] ∧ State.reset.stack = [] ∧ State.reset.registry = [] ∧
  State.reset.mode = .idle ∧ State.reset.last = .noResult ∧
  State.reset.params.stackCapacity = none ∧ State.reset.params.storeCapacity = none
end

