-- ==== Sys2Proof/Laws/State.lean ====
section
/-! SUPPORT. One lemma per field per update of the state, so that no proof unfolds a record update. -/

namespace Sys2Proof.Machine

@[simp] theorem raiseError_regs (k : ErrorKind) (d : ErrorDetail) (s : State) : (raiseError k d s).regs = s.regs := rfl
@[simp] theorem raiseError_flags (k : ErrorKind) (d : ErrorDetail) (s : State) : (raiseError k d s).flags = s.flags := rfl
@[simp] theorem raiseError_pc (k : ErrorKind) (d : ErrorDetail) (s : State) : (raiseError k d s).pc = s.pc := rfl
@[simp] theorem raiseError_taken (k : ErrorKind) (d : ErrorDetail) (s : State) : (raiseError k d s).taken = s.taken := rfl
@[simp] theorem raiseError_store (k : ErrorKind) (d : ErrorDetail) (s : State) : (raiseError k d s).store = s.store := rfl
@[simp] theorem raiseError_stack (k : ErrorKind) (d : ErrorDetail) (s : State) : (raiseError k d s).stack = s.stack := rfl
@[simp] theorem raiseError_registry (k : ErrorKind) (d : ErrorDetail) (s : State) : (raiseError k d s).registry = s.registry := rfl
@[simp] theorem raiseError_mode (k : ErrorKind) (d : ErrorDetail) (s : State) : (raiseError k d s).mode = .idle := rfl
@[simp] theorem raiseError_last (k : ErrorKind) (d : ErrorDetail) (s : State) : (raiseError k d s).last = .fault k s.pc := rfl
@[simp] theorem raiseError_params (k : ErrorKind) (d : ErrorDetail) (s : State) : (raiseError k d s).params = s.params := rfl
@[simp] theorem raiseError_handlers (k : ErrorKind) (d : ErrorDetail) (s : State) : (raiseError k d s).handlers = s.handlers := rfl
@[simp] theorem raiseError_turns (k : ErrorKind) (d : ErrorDetail) (s : State) : (raiseError k d s).turns = s.turns := rfl
@[simp] theorem raiseError_reply (k : ErrorKind) (d : ErrorDetail) (s : State) : (raiseError k d s).reply = some (.fault k s.pc d) := rfl

@[simp] theorem transferTo_regs (t : Word) (s : State) : (transferTo t s).regs = s.regs := rfl
@[simp] theorem transferTo_flags (t : Word) (s : State) : (transferTo t s).flags = s.flags := rfl
@[simp] theorem transferTo_pc (t : Word) (s : State) : (transferTo t s).pc = t := rfl
@[simp] theorem transferTo_taken (t : Word) (s : State) : (transferTo t s).taken = true := rfl
@[simp] theorem transferTo_store (t : Word) (s : State) : (transferTo t s).store = s.store := rfl
@[simp] theorem transferTo_stack (t : Word) (s : State) : (transferTo t s).stack = s.stack := rfl
@[simp] theorem transferTo_registry (t : Word) (s : State) : (transferTo t s).registry = s.registry := rfl
@[simp] theorem transferTo_mode (t : Word) (s : State) : (transferTo t s).mode = s.mode := rfl
@[simp] theorem transferTo_last (t : Word) (s : State) : (transferTo t s).last = s.last := rfl
@[simp] theorem transferTo_params (t : Word) (s : State) : (transferTo t s).params = s.params := rfl
@[simp] theorem transferTo_handlers (t : Word) (s : State) : (transferTo t s).handlers = s.handlers := rfl
@[simp] theorem transferTo_turns (t : Word) (s : State) : (transferTo t s).turns = s.turns := rfl
@[simp] theorem transferTo_reply (t : Word) (s : State) : (transferTo t s).reply = s.reply := rfl

@[simp] theorem clearTaken_regs (s : State) : (clearTaken s).regs = s.regs := rfl
@[simp] theorem clearTaken_flags (s : State) : (clearTaken s).flags = s.flags := rfl
@[simp] theorem clearTaken_pc (s : State) : (clearTaken s).pc = s.pc := rfl
@[simp] theorem clearTaken_taken (s : State) : (clearTaken s).taken = false := rfl
@[simp] theorem clearTaken_store (s : State) : (clearTaken s).store = s.store := rfl
@[simp] theorem clearTaken_stack (s : State) : (clearTaken s).stack = s.stack := rfl
@[simp] theorem clearTaken_registry (s : State) : (clearTaken s).registry = s.registry := rfl
@[simp] theorem clearTaken_mode (s : State) : (clearTaken s).mode = s.mode := rfl
@[simp] theorem clearTaken_last (s : State) : (clearTaken s).last = s.last := rfl
@[simp] theorem clearTaken_params (s : State) : (clearTaken s).params = s.params := rfl
@[simp] theorem clearTaken_handlers (s : State) : (clearTaken s).handlers = s.handlers := rfl
@[simp] theorem clearTaken_turns (s : State) : (clearTaken s).turns = s.turns := rfl
@[simp] theorem clearTaken_reply (s : State) : (clearTaken s).reply = s.reply := rfl

@[simp] theorem endDrain_regs (s : State) : (endDrain s).regs = s.regs := rfl
@[simp] theorem endDrain_flags (s : State) : (endDrain s).flags = s.flags := rfl
@[simp] theorem endDrain_pc (s : State) : (endDrain s).pc = s.pc := rfl
@[simp] theorem endDrain_taken (s : State) : (endDrain s).taken = s.taken := rfl
@[simp] theorem endDrain_store (s : State) : (endDrain s).store = s.store := rfl
@[simp] theorem endDrain_stack (s : State) : (endDrain s).stack = s.stack := rfl
@[simp] theorem endDrain_registry (s : State) : (endDrain s).registry = s.registry := rfl
@[simp] theorem endDrain_mode (s : State) : (endDrain s).mode = .idle := rfl
@[simp] theorem endDrain_last (s : State) : (endDrain s).last = .halted s.pc := rfl
@[simp] theorem endDrain_params (s : State) : (endDrain s).params = s.params := rfl
@[simp] theorem endDrain_handlers (s : State) : (endDrain s).handlers = s.handlers := rfl
@[simp] theorem endDrain_turns (s : State) : (endDrain s).turns = s.turns := rfl
@[simp] theorem endDrain_reply (s : State) : (endDrain s).reply = some (.halted s.pc) := rfl

@[simp] theorem commitAlu_regs (d : RegId) (out : AluOut) (s : State) : (commitAlu d out s).regs = setReg d out.r s.regs := rfl
@[simp] theorem commitAlu_flags (d : RegId) (out : AluOut) (s : State) : (commitAlu d out s).flags = commitFlags out.fl s.flags := rfl
@[simp] theorem commitAlu_pc (d : RegId) (out : AluOut) (s : State) : (commitAlu d out s).pc = s.pc := rfl
@[simp] theorem commitAlu_taken (d : RegId) (out : AluOut) (s : State) : (commitAlu d out s).taken = s.taken := rfl
@[simp] theorem commitAlu_store (d : RegId) (out : AluOut) (s : State) : (commitAlu d out s).store = s.store := rfl
@[simp] theorem commitAlu_stack (d : RegId) (out : AluOut) (s : State) : (commitAlu d out s).stack = s.stack := rfl
@[simp] theorem commitAlu_registry (d : RegId) (out : AluOut) (s : State) : (commitAlu d out s).registry = s.registry := rfl
@[simp] theorem commitAlu_mode (d : RegId) (out : AluOut) (s : State) : (commitAlu d out s).mode = s.mode := rfl
@[simp] theorem commitAlu_last (d : RegId) (out : AluOut) (s : State) : (commitAlu d out s).last = s.last := rfl
@[simp] theorem commitAlu_params (d : RegId) (out : AluOut) (s : State) : (commitAlu d out s).params = s.params := rfl
@[simp] theorem commitAlu_handlers (d : RegId) (out : AluOut) (s : State) : (commitAlu d out s).handlers = s.handlers := rfl
@[simp] theorem commitAlu_turns (d : RegId) (out : AluOut) (s : State) : (commitAlu d out s).turns = s.turns := rfl
@[simp] theorem commitAlu_reply (d : RegId) (out : AluOut) (s : State) : (commitAlu d out s).reply = s.reply := rfl

@[simp] theorem commitAluFlags_regs (out : AluOut) (s : State) : (commitAluFlags out s).regs = s.regs := rfl
@[simp] theorem commitAluFlags_flags (out : AluOut) (s : State) : (commitAluFlags out s).flags = commitFlags out.fl s.flags := rfl
@[simp] theorem commitAluFlags_pc (out : AluOut) (s : State) : (commitAluFlags out s).pc = s.pc := rfl
@[simp] theorem commitAluFlags_taken (out : AluOut) (s : State) : (commitAluFlags out s).taken = s.taken := rfl
@[simp] theorem commitAluFlags_store (out : AluOut) (s : State) : (commitAluFlags out s).store = s.store := rfl
@[simp] theorem commitAluFlags_stack (out : AluOut) (s : State) : (commitAluFlags out s).stack = s.stack := rfl
@[simp] theorem commitAluFlags_registry (out : AluOut) (s : State) : (commitAluFlags out s).registry = s.registry := rfl
@[simp] theorem commitAluFlags_mode (out : AluOut) (s : State) : (commitAluFlags out s).mode = s.mode := rfl
@[simp] theorem commitAluFlags_last (out : AluOut) (s : State) : (commitAluFlags out s).last = s.last := rfl
@[simp] theorem commitAluFlags_params (out : AluOut) (s : State) : (commitAluFlags out s).params = s.params := rfl
@[simp] theorem commitAluFlags_handlers (out : AluOut) (s : State) : (commitAluFlags out s).handlers = s.handlers := rfl
@[simp] theorem commitAluFlags_turns (out : AluOut) (s : State) : (commitAluFlags out s).turns = s.turns := rfl
@[simp] theorem commitAluFlags_reply (out : AluOut) (s : State) : (commitAluFlags out s).reply = s.reply := rfl

@[simp] theorem refuseCall_regs (why : RequestRefusal) (s : State) : (refuseCall why s).regs = s.regs := rfl
@[simp] theorem refuseCall_flags (why : RequestRefusal) (s : State) : (refuseCall why s).flags = s.flags := rfl
@[simp] theorem refuseCall_pc (why : RequestRefusal) (s : State) : (refuseCall why s).pc = s.pc := rfl
@[simp] theorem refuseCall_taken (why : RequestRefusal) (s : State) : (refuseCall why s).taken = s.taken := rfl
@[simp] theorem refuseCall_store (why : RequestRefusal) (s : State) : (refuseCall why s).store = s.store := rfl
@[simp] theorem refuseCall_stack (why : RequestRefusal) (s : State) : (refuseCall why s).stack = s.stack := rfl
@[simp] theorem refuseCall_registry (why : RequestRefusal) (s : State) : (refuseCall why s).registry = s.registry := rfl
@[simp] theorem refuseCall_mode (why : RequestRefusal) (s : State) : (refuseCall why s).mode = s.mode := rfl
@[simp] theorem refuseCall_last (why : RequestRefusal) (s : State) : (refuseCall why s).last = s.last := rfl
@[simp] theorem refuseCall_params (why : RequestRefusal) (s : State) : (refuseCall why s).params = s.params := rfl
@[simp] theorem refuseCall_handlers (why : RequestRefusal) (s : State) : (refuseCall why s).handlers = s.handlers := rfl
@[simp] theorem refuseCall_turns (why : RequestRefusal) (s : State) : (refuseCall why s).turns = s.turns := rfl
@[simp] theorem refuseCall_reply (why : RequestRefusal) (s : State) : (refuseCall why s).reply = some (.refused why) := rfl

@[simp] theorem raiseOperandError_regs (e : OperandError) (s : State) : (raiseOperandError e s).regs = s.regs := by cases e <;> rfl
@[simp] theorem raiseOperandError_flags (e : OperandError) (s : State) : (raiseOperandError e s).flags = s.flags := by cases e <;> rfl
@[simp] theorem raiseOperandError_pc (e : OperandError) (s : State) : (raiseOperandError e s).pc = s.pc := by cases e <;> rfl
@[simp] theorem raiseOperandError_taken (e : OperandError) (s : State) : (raiseOperandError e s).taken = s.taken := by cases e <;> rfl
@[simp] theorem raiseOperandError_store (e : OperandError) (s : State) : (raiseOperandError e s).store = s.store := by cases e <;> rfl
@[simp] theorem raiseOperandError_stack (e : OperandError) (s : State) : (raiseOperandError e s).stack = s.stack := by cases e <;> rfl
@[simp] theorem raiseOperandError_registry (e : OperandError) (s : State) : (raiseOperandError e s).registry = s.registry := by cases e <;> rfl
@[simp] theorem raiseOperandError_mode (e : OperandError) (s : State) : (raiseOperandError e s).mode = .idle := by cases e <;> rfl
@[simp] theorem raiseOperandError_params (e : OperandError) (s : State) : (raiseOperandError e s).params = s.params := by cases e <;> rfl
@[simp] theorem raiseOperandError_handlers (e : OperandError) (s : State) : (raiseOperandError e s).handlers = s.handlers := by cases e <;> rfl
@[simp] theorem raiseOperandError_turns (e : OperandError) (s : State) : (raiseOperandError e s).turns = s.turns := by cases e <;> rfl

@[simp] theorem pushWord_regs (v : Word) (s : State) : (pushWord v s).regs = s.regs := by unfold pushWord; split <;> rfl
@[simp] theorem pushWord_flags (v : Word) (s : State) : (pushWord v s).flags = s.flags := by unfold pushWord; split <;> rfl
@[simp] theorem pushWord_pc (v : Word) (s : State) : (pushWord v s).pc = s.pc := by unfold pushWord; split <;> rfl
@[simp] theorem pushWord_taken (v : Word) (s : State) : (pushWord v s).taken = s.taken := by unfold pushWord; split <;> rfl
@[simp] theorem pushWord_store (v : Word) (s : State) : (pushWord v s).store = s.store := by unfold pushWord; split <;> rfl
@[simp] theorem pushWord_registry (v : Word) (s : State) : (pushWord v s).registry = s.registry := by unfold pushWord; split <;> rfl
@[simp] theorem pushWord_params (v : Word) (s : State) : (pushWord v s).params = s.params := by unfold pushWord; split <;> rfl
@[simp] theorem pushWord_handlers (v : Word) (s : State) : (pushWord v s).handlers = s.handlers := by unfold pushWord; split <;> rfl
@[simp] theorem pushWord_turns (v : Word) (s : State) : (pushWord v s).turns = s.turns := by unfold pushWord; split <;> rfl

@[simp] theorem finishInstr_regs (s : State) : (finishInstr s).regs = s.regs := by unfold finishInstr; split <;> first | rfl | (split <;> rfl)
@[simp] theorem finishInstr_flags (s : State) : (finishInstr s).flags = s.flags := by unfold finishInstr; split <;> first | rfl | (split <;> rfl)
@[simp] theorem finishInstr_taken (s : State) : (finishInstr s).taken = false := by unfold finishInstr; split <;> first | rfl | (split <;> rfl)
@[simp] theorem finishInstr_store (s : State) : (finishInstr s).store = s.store := by unfold finishInstr; split <;> first | rfl | (split <;> rfl)
@[simp] theorem finishInstr_stack (s : State) : (finishInstr s).stack = s.stack := by unfold finishInstr; split <;> first | rfl | (split <;> rfl)
@[simp] theorem finishInstr_registry (s : State) : (finishInstr s).registry = s.registry := by unfold finishInstr; split <;> first | rfl | (split <;> rfl)
@[simp] theorem finishInstr_mode (s : State) : (finishInstr s).mode = s.mode := by unfold finishInstr; split <;> first | rfl | (split <;> rfl)
@[simp] theorem finishInstr_last (s : State) : (finishInstr s).last = s.last := by unfold finishInstr; split <;> first | rfl | (split <;> rfl)
@[simp] theorem finishInstr_params (s : State) : (finishInstr s).params = s.params := by unfold finishInstr; split <;> first | rfl | (split <;> rfl)
@[simp] theorem finishInstr_handlers (s : State) : (finishInstr s).handlers = s.handlers := by unfold finishInstr; split <;> first | rfl | (split <;> rfl)
@[simp] theorem finishInstr_turns (s : State) : (finishInstr s).turns = s.turns := by unfold finishInstr; split <;> first | rfl | (split <;> rfl)
@[simp] theorem finishInstr_reply (s : State) : (finishInstr s).reply = s.reply := by unfold finishInstr; split <;> first | rfl | (split <;> rfl)

end Sys2Proof.Machine
end

