-- ==== Sys2Proof/Laws/Ops.lean ====
section
/-! SUPPORT. For each shared operation, what it can do, said once: register codes, operand checks, register views, the operand
stack, the handlers, the host's calls, and the inversion of an instruction and of a step. -/

namespace Sys2Proof.Machine

/-! ## Register codes and operands -/

@[simp] theorem resolveCode_regCode (id : RegId) : resolveCode (regCode id) = some id := by cases id <;> rfl

@[simp] theorem takeCode_regCode (k : Nat) (id : RegId) : takeCode k (regCode id) = .ok id := by simp [takeCode]

@[simp] theorem takeEither_srcOperand (k : Nat) (src : Src) : takeEither k (srcOperand src) = .ok src := by
  cases src <;> simp [takeEither, srcOperand]

@[simp] theorem takeDstSrc_dstSrc (d : RegId) (src : Src) : takeDstSrc (dstSrc d src) = .ok (d, src) := by
  simp [takeDstSrc, dstSrc]

@[simp] theorem takeSrc_srcOnly (src : Src) : takeSrc (srcOnly src) = .ok src := by simp [takeSrc, srcOnly]

@[simp] theorem takeDst_dstOnly (d : RegId) : takeDst (dstOnly d) = .ok d := by simp [takeDst, dstOnly]

@[simp] theorem withChecked_ok {α : Type} (a : α) (s : State) (rule : α → Result) :
    withChecked (.ok a) s rule = rule a := rfl

@[simp] theorem withChecked_error {α : Type} (e : OperandError) (s : State) (rule : α → Result) :
    withChecked (.error e) s rule = .next (raiseOperandError e s) := rfl

/-- What `withChecked` can do: run the rule on checked operands, or raise the error of the checks. -/
theorem withChecked_cases {α : Type} {c : Except OperandError α} {s : State} {rule : α → Result} {x : Result}
    (h : withChecked c s rule = x) :
    (∃ a, c = .ok a ∧ rule a = x) ∨ ∃ e, c = .error e ∧ x = .next (raiseOperandError e s) := by
  cases c with
  | ok a => exact .inl ⟨a, rfl, h⟩
  | error e => exact .inr ⟨e, rfl, h.symm⟩

/-- An operand error is one of three errors, raised as R284 says. -/
theorem raiseOperandError_eq (e : OperandError) (s : State) : ∃ k d, raiseOperandError e s = raiseError k d s := by
  cases e <;> exact ⟨_, _, rfl⟩

/-! ## Register views -/

@[simp] theorem readFamily_writeFamily_same (f : Family) (w : Word) (g : RegBank) :
    readFamily f (writeFamily f w g) = w := by cases f <;> rfl

theorem readFamily_writeFamily_other {f f' : Family} (h : f ≠ f') (w : Word) (g : RegBank) :
    readFamily f (writeFamily f' w g) = readFamily f g := by
  cases f <;> cases f' <;> first | rfl | exact absurd rfl h

/-- A write changes the family of its id only. -/
theorem readFamily_setReg_other {f : Family} {id : RegId} (h : f ≠ familyOf id) (v : Word) (g : RegBank) :
    readFamily f (setReg id v g) = readFamily f g := by
  simp [setReg, readFamily_writeFamily_other h]

/-- The word a write leaves in its family. -/
theorem readFamily_setReg_same (id : RegId) (v : Word) (g : RegBank) :
    readFamily (familyOf id) (setReg id v g) =
      (readFamily (familyOf id) g &&& ~~~(viewMask (viewOf id) <<< viewLo (viewOf id))) |||
        ((v <<< viewLo (viewOf id)) &&& (viewMask (viewOf id) <<< viewLo (viewOf id))) := by
  simp [setReg]

/-! ## The operand stack -/

/-- What a push can do: put the value on top of a stack that is not full, or raise StackOverflow. -/
theorem pushWord_cases (v : Word) (s : State) :
    (stackFull s = false ∧ pushWord v s = { s with stack := v :: s.stack }) ∨
      (stackFull s = true ∧ pushWord v s = raiseError .stackOverflow .nothing s) := by
  unfold pushWord
  cases h : stackFull s <;> simp

/-- A stack that is not full has room for one more word. -/
theorem stack_room {s : State} (h : stackFull s = false) {n : Nat} (hn : s.params.stackCapacity = some n) :
    s.stack.length < n := by
  simpa [stackFull, hn] using h

/-- What `Top()` can do: raise StackUnderflow on an empty stack, or go on with the head. -/
theorem stackTop_cases {s : State} {rule : Word → Result} {x : Result} (h : stackTop s rule = x) :
    (s.stack = [] ∧ x = .next (raiseError .stackUnderflow .nothing s)) ∨ ∃ v rest, s.stack = v :: rest ∧ rule v = x := by
  unfold stackTop at h
  split at h
  · next hs => exact .inl ⟨hs, h.symm⟩
  · next v rest hs => exact .inr ⟨v, rest, hs, h⟩

/-- What `Pop()` can do: raise StackUnderflow on an empty stack, or go on with the head and the rest of the stack. -/
theorem popWord_cases {s : State} {rule : Word → State → Result} {x : Result} (h : popWord s rule = x) :
    (s.stack = [] ∧ x = .next (raiseError .stackUnderflow .nothing s)) ∨
      ∃ v rest, s.stack = v :: rest ∧ rule v { s with stack := rest } = x := by
  obtain h | ⟨v, rest, hs, h⟩ := stackTop_cases h
  · exact .inl h
  · exact .inr ⟨v, rest, hs, by rw [hs] at h; exact h⟩

/-! ## Calling the handlers -/

/-- The writes of a response are all applied exactly when every code resolves, with the bank they give. -/
theorem applyWrites_done_iff (writes : List (Word × Word)) (g g' : RegBank) :
    applyWrites writes g = (g', none) ↔ WritesGive writes g g' := by
  induction writes generalizing g with
  | nil => simp [applyWrites, WritesGive, eq_comm]
  | cons w rest ih =>
    obtain ⟨code, v⟩ := w
    cases h : resolveCode code <;> simp [applyWrites, WritesGive, h, ih]

/-- The writes of a response stop at an unresolved code, after the writes before it. -/
theorem applyWrites_stop {writes : List (Word × Word)} {g g' : RegBank} {code : Word}
    (h : applyWrites writes g = (g', some code)) :
    ∃ done v more, writes = done ++ (code, v) :: more ∧ WritesGive done g g' ∧ resolveCode code = none := by
  induction writes generalizing g with
  | nil => simp [applyWrites] at h
  | cons w rest ih =>
    obtain ⟨c, v⟩ := w
    unfold applyWrites at h
    cases hc : resolveCode c with
    | none =>
      simp only [hc, Prod.mk.injEq, Option.some.injEq] at h
      obtain ⟨rfl, rfl⟩ := h
      exact ⟨[], v, rest, rfl, rfl, hc⟩
    | some id =>
      simp only [hc] at h
      obtain ⟨done, v', more, rfl, hd, hn⟩ := ih h
      exact ⟨(c, v) :: done, v', more, rfl, ⟨id, hc, hd⟩, hn⟩

/-- What the dispatch can do: complete with the handlers' writes, end in the error of one of them, or stop for ever in one that
never returns. -/
theorem dispatchHandlers_cases {id : Word} {l : List Registration} {j : Nat} {s : State} {x : Result}
    (h : dispatchHandlers id l j s = x) :
    (∃ g, HandlersGive s.handlers id l s.regs g ∧ x = .next { s with regs := g }) ∨
    (∃ g k d, HandlersStop s.handlers id l j s.regs g k d ∧ x = .next (raiseError k d { s with regs := g })) ∨
    ∃ before e after g, l = before ++ e :: after ∧ HandlersGive s.handlers id before s.regs g ∧
      handlerAnswer s.handlers e.handle ⟨id, g⟩ = .neverReturns ∧ x = .fault (.handlerNeverReturns (j + before.length)) := by
  induction l generalizing j s with
  | nil => exact .inl ⟨s.regs, rfl, h.symm⟩
  | cons e rest ih =>
    unfold dispatchHandlers at h
    split at h
    · next ha => exact .inr (.inr ⟨[], e, rest, s.regs, rfl, rfl, ha, h.symm⟩)
    · next r ha =>
      split at h
      · next g code hw =>
        obtain ⟨done, v, more, hr, hd, hn⟩ := applyWrites_stop hw
        exact .inr (.inl ⟨g, _, _, ⟨[], e, rest, s.regs, r, rfl, rfl, ha, .inr ⟨done, code, v, more, hr, hd, hn, rfl, rfl⟩⟩, h.symm⟩)
      · next g hw =>
        have hg := (applyWrites_done_iff _ _ _).mp hw
        split at h
        · next hf => exact .inr (.inl ⟨g, _, _, ⟨[], e, rest, s.regs, r, rfl, rfl, ha, .inl ⟨hg, hf, rfl, rfl⟩⟩, h.symm⟩)
        · next hf =>
          have hf : r.failed = false := by simpa using hf
          have hp : ∀ n, j + 1 + n = j + (n + 1) := fun n => by omega
          obtain ⟨g', hr, hx⟩ | ⟨g', k, d, ⟨b, e', a, g1, r', hl, hb, hs⟩, hx⟩ | ⟨b, e', a, g', hl, hb, hs, hx⟩ := ih h
          · exact .inl ⟨g', ⟨r, g, ha, hf, hg, hr⟩, hx⟩
          · rw [hp] at hs
            exact .inr (.inl ⟨g', k, d, ⟨e :: b, e', a, g1, r', by rw [hl]; rfl, ⟨r, g, ha, hf, hg, hb⟩, hs⟩, hx⟩)
          · rw [hp] at hx
            exact .inr (.inr ⟨e :: b, e', a, g', by rw [hl]; rfl, ⟨r, g, ha, hf, hg, hb⟩, hs, hx⟩)

/-- The bound check finds an entry that binds the id. -/
theorem isBound_iff (id : Word) (l : List Registration) : isBound id l = true ↔ ∃ x ∈ l, id ∈ x.binds := by
  simp [isBound]

/-- A notification's dispatch, or UnhandledInterrupt where no entry binds the id. -/
theorem notifyHandlers_cases {id : Word} {s : State} {x : Result} (h : notifyHandlers id s = x) :
    ((∃ e ∈ s.registry, id ∈ e.binds) ∧ dispatchHandlers id s.registry 0 s = x) ∨
    (¬ (∃ e ∈ s.registry, id ∈ e.binds) ∧ x = .next (raiseError .unhandledInterrupt (.interrupt id) s)) := by
  unfold notifyHandlers at h
  split at h
  · next hb => exact .inl ⟨(isBound_iff _ _).mp hb, h⟩
  · next hb => exact .inr ⟨fun he => hb ((isBound_iff _ _).mpr he), h.symm⟩

/-- What a notification that answers a next state can do: only the registers change, and it may end in an error. -/
theorem notifyHandlers_next {id : Word} {s s' : State} (h : notifyHandlers id s = .next s') :
    ∃ g, s' = { s with regs := g } ∨ ∃ k d, s' = raiseError k d { s with regs := g } := by
  obtain ⟨-, h⟩ | ⟨-, h⟩ := notifyHandlers_cases h
  · obtain ⟨g, -, h⟩ | ⟨g, k, d, -, h⟩ | ⟨_, _, _, _, -, -, -, h⟩ := dispatchHandlers_cases h
    · cases h; exact ⟨g, .inl rfl⟩
    · cases h; exact ⟨g, .inr ⟨k, d, rfl⟩⟩
    · cases h
  · cases h; exact ⟨s.regs, .inr ⟨_, _, rfl⟩⟩

/-! ## What an instruction can do -/

/-- An instruction that answers a next state either ends in an error, having changed at most the registers before it, or
completes, having changed at most the registers, the flags, the stack, `pc` and the latch, within the stack's capacity. -/
inductive InstrEffect (s s' : State) : Prop where
  | raises (g : RegBank) (k : ErrorKind) (d : ErrorDetail) (h : s' = raiseError k d { s with regs := g })
  | completes (g : RegBank) (f : FlagBits) (st : List Word) (p : Word) (t : Bool)
      (fits : ∀ n, s.params.stackCapacity = some n → s.stack.length ≤ n → st.length ≤ n)
      (h : s' = { s with regs := g, flags := f, stack := st, pc := p, taken := t })

/-- A completed change of registers and flags. -/
theorem InstrEffect.ofRegsFlags (s : State) (g : RegBank) (f : FlagBits) :
    InstrEffect s { s with regs := g, flags := f } :=
  .completes g f s.stack s.pc s.taken (fun _ _ h => h) rfl

/-- An operand error is an effect. -/
theorem InstrEffect.ofOperandError (e : OperandError) (s : State) : InstrEffect s (raiseOperandError e s) := by
  obtain ⟨k, d, h⟩ := raiseOperandError_eq e s
  exact .raises s.regs k d h

/-- An ALU instruction's effect. -/
theorem InstrEffect.ofShift (op : AluOp) (d : RegId) (src : Src) (s : State) :
    InstrEffect s (shiftDstSrc op d src s) := by
  unfold shiftDstSrc
  split
  · exact .ofRegsFlags s s.regs s.flags
  · exact .ofRegsFlags s _ _

/-- A rule on checked operands whose every answer is an effect gives an effect. -/
theorem withChecked_effect {α : Type} {c : Except OperandError α} {s s' : State} {rule : α → Result}
    (hr : ∀ a, rule a = .next s' → InstrEffect s s') (h : withChecked c s rule = .next s') : InstrEffect s s' := by
  obtain ⟨a, -, h⟩ | ⟨e, -, h⟩ := withChecked_cases h
  · exact hr a h
  · cases h; exact .ofOperandError e s

/-- A conditional jump's effect. -/
theorem jumpIf_effect {c : Bool} {o : Operands} {s s' : State} (h : jumpIf c o s = .next s') : InstrEffect s s' := by
  refine withChecked_effect (fun src h => ?_) h
  cases h
  cases c
  · exact .ofRegsFlags s s.regs s.flags
  · exact .completes s.regs s.flags s.stack _ true (fun _ _ h => h) rfl

/-- What any instruction can do. -/
theorem exec_effect {i : Instr} {s s' : State} (h : exec i s = .next s') : InstrEffect s s' := by
  cases i
  case mov | add | sub | and | or | xor | cmp | inc | dec | not | mul =>
    exact withChecked_effect (fun _ h => by cases h; exact .ofRegsFlags s _ _) h
  case sal | shl | sar | shr =>
    exact withChecked_effect (fun p h => by cases h; exact .ofShift _ _ _ s) h
  case div =>
    refine withChecked_effect (fun src h => ?_) h
    dsimp only at h
    split at h
    · cases h; exact .raises s.regs _ _ rfl
    · cases h; exact .ofRegsFlags s _ _
  case push =>
    refine withChecked_effect (fun src h => ?_) h
    cases h
    obtain ⟨hf, h⟩ | ⟨-, h⟩ := pushWord_cases (alu .pass 0 (srcVal src s.regs)).r s
    · rw [h]
      exact .completes s.regs s.flags (_ :: s.stack) s.pc s.taken (fun n hn _ => stack_room hf hn) rfl
    · rw [h]; exact .raises s.regs _ _ rfl
  case pop =>
    refine withChecked_effect (fun d h => ?_) h
    obtain ⟨-, h⟩ | ⟨v, rest, hs, h⟩ := popWord_cases h
    · cases h; exact .raises s.regs _ _ rfl
    · cases h
      exact .completes _ s.flags rest s.pc s.taken (fun n _ hl => by rw [hs] at hl; exact Nat.le_of_succ_le hl) rfl
  case jmp =>
    refine withChecked_effect (fun src h => ?_) h
    cases h
    exact .completes s.regs s.flags s.stack _ true (fun _ _ h => h) rfl
  case int =>
    refine withChecked_effect (fun id h => ?_) h
    obtain ⟨g, h | ⟨k, d, h⟩⟩ := notifyHandlers_next h
    · rw [h]; exact .ofRegsFlags s g s.flags
    · exact .raises g k d h
  case nop => exact withChecked_effect (fun _ h => by cases h; exact .ofRegsFlags s s.regs s.flags) h
  case invalid => cases h; exact .raises s.regs _ _ rfl
  all_goals exact jumpIf_effect h

/-! ## What a step can do -/

/-- What a move of the core can do. -/
theorem coreStep_cases {s s' : State} (h : coreStep s = .next s') :
    (s.mode = .idle ∧ s' = s) ∨
    (s.mode = .draining ∧ fetchWord s = none ∧ s' = endDrain s) ∨
    ∃ d t, s.mode = .draining ∧ fetchWord s = some d ∧ exec (decode d) (clearTaken s) = .next t ∧ s' = finishInstr t := by
  unfold coreStep at h
  split at h
  · next hm => cases h; exact .inl ⟨hm, rfl⟩
  · next hm =>
    split at h
    · next hf => cases h; exact .inr (.inl ⟨hm, hf, rfl⟩)
    · next d hf =>
      unfold runWord at h
      split at h
      · next t ht => cases h; exact .inr (.inr ⟨d, t, hm, hf, ht, rfl⟩)
      · cases h
      · cases h

/-- What a step can do: a move of the core, a served call, or a change of the handlers. -/
theorem step_cases {s s' : State} (h : step s = .next s') :
    (∃ ts, CoreMoves s ∧ coreStep { s with turns := ts } = .next s') ∨
    (∃ c rest, s.turns = .call c :: rest ∧ s' = serveCall c { s with turns := rest }) ∨
    ∃ hs rest, s.turns = .handlersBecome hs :: rest ∧ s' = { s with turns := rest, handlers := hs } := by
  unfold step machineStep at h
  split at h
  · next ht => exact .inl ⟨[], .inl ht, by rw [← ht]; exact h⟩
  · next rest ht => exact .inl ⟨rest, .inr ⟨rest, ht⟩, h⟩
  · next c rest ht => cases h; exact .inr (.inl ⟨c, rest, ht, rfl⟩)
  · next hs rest ht => cases h; exact .inr (.inr ⟨hs, rest, ht, rfl⟩)

/-- A store with room for one more word is not full. -/
theorem storeFull_eq_false {s : State} (h : ∀ n, s.params.storeCapacity = some n → s.store.length < n) :
    storeFull s = false := by
  unfold storeFull
  split
  · next n hn => simpa using h n hn
  · rfl

/-- Append-and-Drain while idle, with room in the store. -/
theorem appendAndDrain_accepts (d : Diw) {s : State} (hm : s.mode = .idle)
    (h : ∀ n, s.params.storeCapacity = some n → s.store.length < n) :
    appendAndDrain d s = { s with store := s.store ++ [d], mode := .draining } := by
  simp [appendAndDrain, hm, storeFull_eq_false h]

/-- What Append-and-Drain can do: append and drain, or refuse. -/
theorem appendAndDrain_cases (d : Diw) (s : State) :
    (s.mode = .idle ∧ storeFull s = false ∧ appendAndDrain d s = { s with store := s.store ++ [d], mode := .draining }) ∨
      ∃ why, appendAndDrain d s = refuseCall why s := by
  unfold appendAndDrain
  cases hm : s.mode
  · cases hf : storeFull s
    · exact .inl ⟨rfl, rfl, by simp⟩
    · exact .inr ⟨.storeFull, by simp⟩
  · exact .inr ⟨.busy, rfl⟩

/-- What a call of the host can do: append and drain, change the registry, or write the reply. -/
theorem serveCall_cases (c : HostCall) (s : State) :
    (∃ d, s.mode = .idle ∧ storeFull s = false ∧ serveCall c s = { s with store := s.store ++ [d], mode := .draining }) ∨
    (∃ h binds, s.registry.any (fun e => e.handle == h) = false ∧
      serveCall c s = { s with registry := s.registry ++ [⟨h, binds⟩] }) ∨
    (∃ h, serveCall c s = { s with registry := s.registry.filter (fun e => e.handle != h) }) ∨
    ∃ r, serveCall c s = { s with reply := r } := by
  cases c with
  | execute d =>
    obtain ⟨hm, hf, h⟩ | ⟨why, h⟩ := appendAndDrain_cases d s
    · exact .inl ⟨d, hm, hf, h⟩
    · exact .inr (.inr (.inr ⟨_, h⟩))
  | submit r =>
    cases hp : packRecord r with
    | none => exact .inr (.inr (.inr ⟨_, by simp only [serveCall, submitRecord, hp]; rfl⟩))
    | some d =>
      obtain ⟨hm, hf, h⟩ | ⟨why, h⟩ := appendAndDrain_cases d s
      · exact .inl ⟨d, hm, hf, by simpa only [serveCall, submitRecord, hp] using h⟩
      · exact .inr (.inr (.inr ⟨_, by simp only [serveCall, submitRecord, hp, h]; rfl⟩))
  | register h binds =>
    cases hr : s.registry.any (fun e => e.handle == h)
    · exact .inr (.inl ⟨h, binds, hr, by simp [serveCall, registerHandler, hr]⟩)
    · exact .inr (.inr (.inr ⟨s.reply, by simp [serveCall, registerHandler, hr]⟩))
  | unregister h => exact .inr (.inr (.inl ⟨h, rfl⟩))
  | readState =>
    refine .inr (.inr (.inr ?_))
    change ∃ r, readDiagnostics s = _
    unfold readDiagnostics
    split <;> exact ⟨_, rfl⟩

end Sys2Proof.Machine
end

