-- ==== Sys2Proof/Laws/Alu.lean ====
section
/-! SUPPORT. Arithmetic facts about the flag computations: views as bit masks, signs as integers, the shift count. -/

namespace Sys2Proof.Machine

/-- The mask of a view has exactly its low bits set. -/
theorem viewMask_bit (v : View) (k : Nat) : (viewMask v).getLsbD k = decide (k < viewWidth v) := by
  by_cases hk : k < 32
  · cases v <;> revert k <;> decide
  · rw [BitVec.getLsbD_of_ge _ _ (by omega)]
    have hw : viewWidth v ≤ 32 := by cases v <;> simp [viewWidth]
    simp [show ¬ k < viewWidth v by omega]

/-- The shift count is the count operand modulo 32. -/
theorem shiftCount_eq_mod (b : Word) : shiftCount b = b.toNat % 32 := by
  unfold shiftCount
  rw [BitVec.toNat_and]
  exact Nat.and_two_pow_sub_one_eq_mod b.toNat 5

/-- Bit 31 is the sign of the two's-complement value. -/
theorem bit31_eq_sign (a : Word) : a.getLsbD 31 = decide (a.toInt < 0) := by
  rw [← BitVec.msb_eq_toInt, BitVec.msb_eq_getLsbD_last]

/-- The range of the two's-complement value. -/
theorem toInt_range (a : Word) : -2 ^ 31 ≤ a.toInt ∧ a.toInt < 2 ^ 31 :=
  ⟨by simpa using BitVec.le_toInt a, by simpa using @BitVec.toInt_lt 32 a⟩

/-- The exact difference, narrowed to 32 bits. -/
theorem ofInt_sub_toNat (a b : Word) : BitVec.ofInt 32 (a.toNat - b.toNat) = a - b := by
  apply BitVec.eq_of_toInt_eq
  rw [BitVec.toInt_ofInt, BitVec.toInt_sub, BitVec.toInt_eq_toNat_bmod, BitVec.toInt_eq_toNat_bmod]
  simp [Int.bmod_sub_bmod, Int.sub_bmod_bmod]

end Sys2Proof.Machine
end

