-- ==== Sys2Proof/Laws/Encoding.lean ====
section
/-! SUPPORT. The fields of a packed word, and what the opcode numbers name. -/

namespace Sys2Proof

/-- Each field of a packed word is the field it was packed from. -/
theorem packFields_fields (opc : Opc) (nops : BitVec 2) (t0 t1 : Bool) (v0 v1 : Word) :
    diwOpc (packFields opc nops t0 t1 v0 v1) = opc ∧ diwNops (packFields opc nops t0 t1 v0 v1) = nops ∧
    diwT0 (packFields opc nops t0 t1 v0 v1) = t0 ∧ diwT1 (packFields opc nops t0 t1 v0 v1) = t1 ∧
    diwV0 (packFields opc nops t0 t1 v0 v1) = v0 ∧ diwV1 (packFields opc nops t0 t1 v0 v1) = v1 := by
  refine ⟨?_, ?_, ?_, ?_, ?_, ?_⟩
  all_goals first | (apply BitVec.eq_of_getLsbD_eq; intro k hk) | skip
  · simp only [packFields, BitVec.getLsbD_append, diwOpc, hk, BitVec.getLsbD_extractLsb', decide_true, Bool.true_and]
    rw [if_pos (by omega)]; congr 1; omega
  · simp only [packFields, BitVec.getLsbD_append, diwNops, hk, BitVec.getLsbD_extractLsb', decide_true, Bool.true_and]
    rw [if_neg (by omega), if_pos (by omega)]; congr 1; omega
  · simp only [packFields, BitVec.getLsbD_append, diwT0]
    cases t0 <;> rfl
  · simp only [packFields, BitVec.getLsbD_append, diwT1]
    cases t1 <;> rfl
  · have e : ¬ (10 + k < 6) := by omega
    simp only [packFields, BitVec.getLsbD_append, diwV0, hk, BitVec.getLsbD_extractLsb', decide_true, Bool.true_and]
    rw [if_neg (by omega), if_neg (by omega), if_neg (by omega), if_neg (by omega), if_pos (by omega)]
    congr 1; omega
  · simp only [packFields, BitVec.getLsbD_append, diwV1, hk, BitVec.getLsbD_extractLsb', decide_true, Bool.true_and]
    rw [if_neg (by omega), if_neg (by omega), if_neg (by omega), if_neg (by omega), if_neg (by omega)]
    congr 1; omega

/-- An operand is read back from its kind bit and its value bits. -/
theorem decodeOperand_of_bits (a : Operand) : decodeOperand (operandIsReg a) (operandBits a) = a := by cases a <;> rfl

/-- The kind bit and the value bits of a decoded slot. -/
theorem bits_of_decodeOperand (b : Bool) (v : Word) :
    operandIsReg (decodeOperand b v) = b ∧ operandBits (decodeOperand b v) = v := by
  cases b <;> exact ⟨rfl, rfl⟩

/-- The opcode number and the operands of an encoded word. -/
theorem encodeFields_fields (opc : Opc) (o : Operands) :
    diwOpc (encodeFields opc o) = opc ∧ decodeOperands (encodeFields opc o) = o := by
  cases o <;> simp [encodeFields, decodeOperands, packFields_fields, decodeOperand_of_bits]

/-- A number from 0x33 up is INVALID's or unassigned, whatever the operands. -/
theorem decodeOpcode_unassigned (opc : Opc) (o : Operands) (h : 0x33 ≤ opc.toNat) : decodeOpcode opc o = .invalid opc := by
  unfold decodeOpcode
  split <;> first | rfl | omega

/-- A number below 0x33 names an instruction with that number and the given operands. -/
theorem decodeOpcode_assigned (opc : Opc) (o : Operands) (h : opc.toNat < 0x33) :
    opcodeNumber (decodeOpcode opc o) = opc ∧ operandsOf (decodeOpcode opc o) = o := by
  have all : ∀ (k : Fin 0x33) (o : Operands),
      opcodeNumber (decodeOpcode (BitVec.ofNat 6 k.val) o) = BitVec.ofNat 6 k.val ∧
        operandsOf (decodeOpcode (BitVec.ofNat 6 k.val) o) = o := by
    intro k o
    fin_cases k <;> exact ⟨rfl, rfl⟩
  simpa using all ⟨opc.toNat, h⟩ o

end Sys2Proof
end

