-- ==== Sys2Proof/Laws/Operands.lean ====
section
/-! SUPPORT. The operand forms against the checks of R105: each raises exactly the first error of its signature's checks. -/

namespace Sys2Proof.Machine

/-- `takeDstSrc` raises what the checks of its signature find. -/
theorem takeDstSrc_of_check (o : Operands) (e : OperandError) (h : checkOperands [.reg, .regImm] o = some e) : takeDstSrc o = .error e := by
  cases o with
  | zero => cases h; rfl
  | one a => cases h; rfl
  | many a b => cases h; rfl
  | two a b =>
    cases a with
    | imm v => cases h; rfl
    | reg c =>
      cases hc : resolveCode c with
      | none => simp [checkOperands, operandCount, firstBadKind, presentOperands, kindAllowed, firstUnresolved, codeResolved, hc] at h
                subst h; simp [takeDstSrc, takeCode, hc]
      | some d =>
        cases b with
        | imm v => simp [checkOperands, operandCount, firstBadKind, presentOperands, kindAllowed, firstUnresolved, codeResolved, hc] at h
        | reg c' =>
          cases hc' : resolveCode c' with
          | none => simp [checkOperands, operandCount, firstBadKind, presentOperands, kindAllowed, firstUnresolved, codeResolved, hc, hc'] at h
                    subst h; simp [takeDstSrc, takeEither, takeCode, hc, hc']
          | some d' => simp [checkOperands, operandCount, firstBadKind, presentOperands, kindAllowed, firstUnresolved, codeResolved, hc, hc'] at h

/-- `takeSrc` raises what the checks of its signature find. -/
theorem takeSrc_of_check (o : Operands) (e : OperandError) (h : checkOperands [.regImm] o = some e) : takeSrc o = .error e := by
  cases o with
  | zero => cases h; rfl
  | two a b => cases h; rfl
  | many a b => cases h; rfl
  | one a =>
    cases a with
    | imm v => cases h
    | reg c =>
      cases hc : resolveCode c <;> simp [checkOperands, operandCount, firstBadKind, presentOperands, kindAllowed, firstUnresolved, codeResolved, hc] at h
      subst h; simp [takeSrc, takeEither, takeCode, hc]

/-- `takeDst` raises what the checks of its signature find. -/
theorem takeDst_of_check (o : Operands) (e : OperandError) (h : checkOperands [.reg] o = some e) : takeDst o = .error e := by
  cases o with
  | zero => cases h; rfl
  | two a b => cases h; rfl
  | many a b => cases h; rfl
  | one a =>
    cases a with
    | imm v => cases h; rfl
    | reg c =>
      cases hc : resolveCode c <;> simp [checkOperands, operandCount, firstBadKind, presentOperands, kindAllowed, firstUnresolved, codeResolved, hc] at h
      subst h; simp [takeDst, takeCode, hc]

/-- `takeImm` raises what the checks of its signature find. -/
theorem takeImm_of_check (o : Operands) (e : OperandError) (h : checkOperands [.imm] o = some e) : takeImm o = .error e := by
  cases o with
  | zero => cases h; rfl
  | two a b => cases h; rfl
  | many a b => cases h; rfl
  | one a => cases a <;> cases h; rfl

/-- `takeNone` raises what the checks of its signature find. -/
theorem takeNone_of_check (o : Operands) (e : OperandError) (h : checkOperands [] o = some e) : takeNone o = .error e := by
  cases o <;> cases h <;> rfl

end Sys2Proof.Machine
end

