-- ==== Sys2Proof/Laws/PerInstr.lean ====
section
/-! SUPPORT. Facts proved once per instruction, one lemma per constructor of Instr. -/

namespace Sys2Proof.Laws

/-- The opcode number of an instruction names it again (R76), for every instruction some word decodes to. -/
def OpcodeRoundTrip.Statement (i : Instr) : Prop :=
  i.Encodable → decodeOpcode (opcodeNumber i) (operandsOf i) = i

theorem OpcodeRoundTrip.mov (o : Operands) : OpcodeRoundTrip.Statement (.mov o) := fun _ => rfl
theorem OpcodeRoundTrip.add (o : Operands) : OpcodeRoundTrip.Statement (.add o) := fun _ => rfl
theorem OpcodeRoundTrip.sub (o : Operands) : OpcodeRoundTrip.Statement (.sub o) := fun _ => rfl
theorem OpcodeRoundTrip.mul (o : Operands) : OpcodeRoundTrip.Statement (.mul o) := fun _ => rfl
theorem OpcodeRoundTrip.div (o : Operands) : OpcodeRoundTrip.Statement (.div o) := fun _ => rfl
theorem OpcodeRoundTrip.inc (o : Operands) : OpcodeRoundTrip.Statement (.inc o) := fun _ => rfl
theorem OpcodeRoundTrip.dec (o : Operands) : OpcodeRoundTrip.Statement (.dec o) := fun _ => rfl
theorem OpcodeRoundTrip.and (o : Operands) : OpcodeRoundTrip.Statement (.and o) := fun _ => rfl
theorem OpcodeRoundTrip.or (o : Operands) : OpcodeRoundTrip.Statement (.or o) := fun _ => rfl
theorem OpcodeRoundTrip.xor (o : Operands) : OpcodeRoundTrip.Statement (.xor o) := fun _ => rfl
theorem OpcodeRoundTrip.not (o : Operands) : OpcodeRoundTrip.Statement (.not o) := fun _ => rfl
theorem OpcodeRoundTrip.sal (o : Operands) : OpcodeRoundTrip.Statement (.sal o) := fun _ => rfl
theorem OpcodeRoundTrip.sar (o : Operands) : OpcodeRoundTrip.Statement (.sar o) := fun _ => rfl
theorem OpcodeRoundTrip.shl (o : Operands) : OpcodeRoundTrip.Statement (.shl o) := fun _ => rfl
theorem OpcodeRoundTrip.shr (o : Operands) : OpcodeRoundTrip.Statement (.shr o) := fun _ => rfl
theorem OpcodeRoundTrip.push (o : Operands) : OpcodeRoundTrip.Statement (.push o) := fun _ => rfl
theorem OpcodeRoundTrip.pop (o : Operands) : OpcodeRoundTrip.Statement (.pop o) := fun _ => rfl
theorem OpcodeRoundTrip.jmp (o : Operands) : OpcodeRoundTrip.Statement (.jmp o) := fun _ => rfl
theorem OpcodeRoundTrip.je (o : Operands) : OpcodeRoundTrip.Statement (.je o) := fun _ => rfl
theorem OpcodeRoundTrip.jz (o : Operands) : OpcodeRoundTrip.Statement (.jz o) := fun _ => rfl
theorem OpcodeRoundTrip.jne (o : Operands) : OpcodeRoundTrip.Statement (.jne o) := fun _ => rfl
theorem OpcodeRoundTrip.jnz (o : Operands) : OpcodeRoundTrip.Statement (.jnz o) := fun _ => rfl
theorem OpcodeRoundTrip.ja (o : Operands) : OpcodeRoundTrip.Statement (.ja o) := fun _ => rfl
theorem OpcodeRoundTrip.jnbe (o : Operands) : OpcodeRoundTrip.Statement (.jnbe o) := fun _ => rfl
theorem OpcodeRoundTrip.jae (o : Operands) : OpcodeRoundTrip.Statement (.jae o) := fun _ => rfl
theorem OpcodeRoundTrip.jnb (o : Operands) : OpcodeRoundTrip.Statement (.jnb o) := fun _ => rfl
theorem OpcodeRoundTrip.jb (o : Operands) : OpcodeRoundTrip.Statement (.jb o) := fun _ => rfl
theorem OpcodeRoundTrip.jnae (o : Operands) : OpcodeRoundTrip.Statement (.jnae o) := fun _ => rfl
theorem OpcodeRoundTrip.jbe (o : Operands) : OpcodeRoundTrip.Statement (.jbe o) := fun _ => rfl
theorem OpcodeRoundTrip.jna (o : Operands) : OpcodeRoundTrip.Statement (.jna o) := fun _ => rfl
theorem OpcodeRoundTrip.jg (o : Operands) : OpcodeRoundTrip.Statement (.jg o) := fun _ => rfl
theorem OpcodeRoundTrip.jnle (o : Operands) : OpcodeRoundTrip.Statement (.jnle o) := fun _ => rfl
theorem OpcodeRoundTrip.jge (o : Operands) : OpcodeRoundTrip.Statement (.jge o) := fun _ => rfl
theorem OpcodeRoundTrip.jnl (o : Operands) : OpcodeRoundTrip.Statement (.jnl o) := fun _ => rfl
theorem OpcodeRoundTrip.jl (o : Operands) : OpcodeRoundTrip.Statement (.jl o) := fun _ => rfl
theorem OpcodeRoundTrip.jnge (o : Operands) : OpcodeRoundTrip.Statement (.jnge o) := fun _ => rfl
theorem OpcodeRoundTrip.jle (o : Operands) : OpcodeRoundTrip.Statement (.jle o) := fun _ => rfl
theorem OpcodeRoundTrip.jng (o : Operands) : OpcodeRoundTrip.Statement (.jng o) := fun _ => rfl
theorem OpcodeRoundTrip.jc (o : Operands) : OpcodeRoundTrip.Statement (.jc o) := fun _ => rfl
theorem OpcodeRoundTrip.jnc (o : Operands) : OpcodeRoundTrip.Statement (.jnc o) := fun _ => rfl
theorem OpcodeRoundTrip.jo (o : Operands) : OpcodeRoundTrip.Statement (.jo o) := fun _ => rfl
theorem OpcodeRoundTrip.jno (o : Operands) : OpcodeRoundTrip.Statement (.jno o) := fun _ => rfl
theorem OpcodeRoundTrip.js (o : Operands) : OpcodeRoundTrip.Statement (.js o) := fun _ => rfl
theorem OpcodeRoundTrip.jns (o : Operands) : OpcodeRoundTrip.Statement (.jns o) := fun _ => rfl
theorem OpcodeRoundTrip.jp (o : Operands) : OpcodeRoundTrip.Statement (.jp o) := fun _ => rfl
theorem OpcodeRoundTrip.jpe (o : Operands) : OpcodeRoundTrip.Statement (.jpe o) := fun _ => rfl
theorem OpcodeRoundTrip.jnp (o : Operands) : OpcodeRoundTrip.Statement (.jnp o) := fun _ => rfl
theorem OpcodeRoundTrip.jpo (o : Operands) : OpcodeRoundTrip.Statement (.jpo o) := fun _ => rfl
theorem OpcodeRoundTrip.cmp (o : Operands) : OpcodeRoundTrip.Statement (.cmp o) := fun _ => rfl
theorem OpcodeRoundTrip.int (o : Operands) : OpcodeRoundTrip.Statement (.int o) := fun _ => rfl
theorem OpcodeRoundTrip.nop (o : Operands) : OpcodeRoundTrip.Statement (.nop o) := fun _ => rfl

/-- Only an unassigned number names INVALID. -/
theorem OpcodeRoundTrip.invalid (opc : Opc) : OpcodeRoundTrip.Statement (.invalid opc) := by
  revert opc
  unfold OpcodeRoundTrip.Statement
  decide

end Sys2Proof.Laws
end

