-- ==== Sys2Proof/Tests/Slice0.lean ====
section
/-! SUPPORT. The model's own tests. Expected values are those of 95_test_vectors.md (part L2, by the vector's id), or are worked out
by hand from the rule named; words are those of its table of DIW encodings, or are written out from R71 to R76. -/

namespace Sys2Proof.Tests

open Sys2Proof Sys2Proof.Machine

/-- Draining at index 0 of a store with the one word `d`, from these registers and flags: a start of part L2. -/
def running (g : RegBank) (f : FlagBits) (d : Diw) : State :=
  { State.reset with regs := g, flags := f, store := [d], mode := .draining }

/-- What a test looks at: the registers, the packed flags, `pc` and the record. -/
def seen (x : Result) : Option (RegBank × Word × Word × LastResult) :=
  match x with
  | .next s => some (s.regs, packFlags s.flags, s.pc, s.last)
  | .fault _ => none
  | .refused _ => none

/-- `pc` after a step. -/
def seenPc (x : Result) : Option Word := (seen x).map (fun p => p.2.2.1)

/-- The operand stack after a step. -/
def seenStack (x : Result) : Option (List Word) :=
  match x with
  | .next s => some s.stack
  | .fault _ => none
  | .refused _ => none

/-! ## Ill-formed terms, one for each check -/

/-- The count of R105: `MOV EAX` (MOV-10). -/
theorem test_illFormed_count : wellFormed (.mov (.one (.reg 0x00))) = false := by decide

/-- NOPS = 3 fits no signature (R72). -/
theorem test_illFormed_many : wellFormed (.add (.many (.reg 0x00) (.imm 1))) = false := by decide

/-- The kinds of R105: an immediate destination (MOV-9), a register interrupt id (PRI-8). -/
theorem test_illFormed_kind :
    wellFormed (.mov (.two (.imm 1) (.imm 2))) = false ∧ wellFormed (.int (.one (.reg 0x00))) = false := by decide

/-- The register codes of R105: the codes of the missing byte views of ESI (MOV-11), and one beyond the table. -/
theorem test_illFormed_register :
    wellFormed (.mov (.two (.reg 0x00) (.reg 0x12))) = false ∧ wellFormed (.jmp (.one (.reg 0x20))) = false := by decide

/-- `invalid` stands for the numbers that name no instruction (R77): 0x32 is NOP's, 0x33 is the first unassigned. -/
theorem test_illFormed_invalid :
    wellFormed (.invalid 0x32) = false ∧ wellFormed (.invalid 0x33) = true ∧ wellFormed (.invalid 0x3F) = true := by decide

/-- A term that passes every check. -/
theorem test_wellFormed : wellFormed (.mov (.two (.reg 0x03) (.imm 0xFF))) = true := by decide

/-! ## Decoding -/

/-- 95_test_vectors.md, DIW encodings of MOV. -/
theorem test_decode_data_movement :
    decode 0x0000003FC0000000D80 = .mov (.two (.reg 0x03) (.imm 0xFF)) ∧
    decode 0x048D159E00000000180 = .mov (.two (.reg 0x00) (.imm 0x12345678)) ∧
    decode 0x00000000C0000000B80 = .mov (.two (.reg 0x02) (.reg 0x03)) := by decide

/-- 95_test_vectors.md, DIW encodings of the arithmetic family. -/
theorem test_decode_arithmetic :
    decode 0x3FFFFFFFC0000000D81 = .add (.two (.reg 0x03) (.imm 0xFFFFFFFF)) ∧
    decode 0x0000000100000000382 = .sub (.two (.reg 0x00) (.reg 0x04)) ∧
    decode 0x0000000000000001C43 = .mul (.one (.imm 0x7)) ∧
    decode 0x0000000000000002144 = .div (.one (.reg 0x08)) ∧
    decode 0x0000000000000002145 = .inc (.one (.reg 0x08)) ∧
    decode 0x0000000000000002146 = .dec (.one (.reg 0x08)) := by decide

/-- 95_test_vectors.md, DIW encodings of the bitwise family. -/
theorem test_decode_bitwise :
    decode 0x0000003FC0000000187 = .and (.two (.reg 0x00) (.imm 0xFF)) ∧
    decode 0x0000000040000000D88 = .or (.two (.reg 0x03) (.imm 0x1)) ∧
    decode 0x0000000000000000389 = .xor (.two (.reg 0x00) (.reg 0x00)) ∧
    decode 0x000000000000000054A = .not (.one (.reg 0x01)) := by decide

/-- 95_test_vectors.md, DIW encodings of the shifts. -/
theorem test_decode_shifts :
    decode 0x000000004000000018B = .sal (.two (.reg 0x00) (.imm 0x1)) ∧
    decode 0x00000002C000000038C = .sar (.two (.reg 0x00) (.reg 0x0B)) ∧
    decode 0x000000084000000018D = .shl (.two (.reg 0x00) (.imm 0x21)) ∧
    decode 0x000000010000000318E = .shr (.two (.reg 0x0C) (.imm 0x4)) := by decide

/-- 95_test_vectors.md, DIW encodings of PUSH and POP. -/
theorem test_decode_stack :
    decode 0x000000000000000114F = .push (.one (.reg 0x04)) ∧
    decode 0x000000003FFFFFFFC4F = .push (.one (.imm 0xFFFFFFFF)) ∧
    decode 0x0000000000000000150 = .pop (.one (.reg 0x00)) := by decide

/-- 95_test_vectors.md, DIW encodings of the jumps it lists. -/
theorem test_decode_jumps_listed :
    decode 0x0000000000000000051 = .jmp (.one (.imm 0x0)) ∧
    decode 0x0000000000000007151 = .jmp (.one (.reg 0x1C)) ∧
    decode 0x0000000000000000852 = .je (.one (.imm 0x2)) ∧
    decode 0x0000000000000000455 = .jnz (.one (.imm 0x1)) ∧
    decode 0x000000003FFFFFFFC6F = .jpo (.one (.imm 0xFFFFFFFF)) := by decide

/-- The other jumps to 5, words written out from R71 and R76: OPC, `1 <<< 6`, `5 <<< 10`. -/
theorem test_decode_jumps_first :
    decode 0x0000000000000001453 = .jz (.one (.imm 0x5)) ∧
    decode 0x0000000000000001454 = .jne (.one (.imm 0x5)) ∧
    decode 0x0000000000000001456 = .ja (.one (.imm 0x5)) ∧
    decode 0x0000000000000001457 = .jnbe (.one (.imm 0x5)) ∧
    decode 0x0000000000000001458 = .jae (.one (.imm 0x5)) ∧
    decode 0x0000000000000001459 = .jnb (.one (.imm 0x5)) ∧
    decode 0x000000000000000145A = .jb (.one (.imm 0x5)) ∧
    decode 0x000000000000000145B = .jnae (.one (.imm 0x5)) ∧
    decode 0x000000000000000145C = .jbe (.one (.imm 0x5)) ∧
    decode 0x000000000000000145D = .jna (.one (.imm 0x5)) ∧
    decode 0x000000000000000145E = .jg (.one (.imm 0x5)) ∧
    decode 0x000000000000000145F = .jnle (.one (.imm 0x5)) ∧
    decode 0x0000000000000001460 = .jge (.one (.imm 0x5)) ∧
    decode 0x0000000000000001461 = .jnl (.one (.imm 0x5)) := by decide

/-- The other jumps to 5, words written out from R71 and R76: OPC, `1 <<< 6`, `5 <<< 10`. -/
theorem test_decode_jumps_second :
    decode 0x0000000000000001462 = .jl (.one (.imm 0x5)) ∧
    decode 0x0000000000000001463 = .jnge (.one (.imm 0x5)) ∧
    decode 0x0000000000000001464 = .jle (.one (.imm 0x5)) ∧
    decode 0x0000000000000001465 = .jng (.one (.imm 0x5)) ∧
    decode 0x0000000000000001466 = .jc (.one (.imm 0x5)) ∧
    decode 0x0000000000000001467 = .jnc (.one (.imm 0x5)) ∧
    decode 0x0000000000000001468 = .jo (.one (.imm 0x5)) ∧
    decode 0x0000000000000001469 = .jno (.one (.imm 0x5)) ∧
    decode 0x000000000000000146A = .js (.one (.imm 0x5)) ∧
    decode 0x000000000000000146B = .jns (.one (.imm 0x5)) ∧
    decode 0x000000000000000146C = .jp (.one (.imm 0x5)) ∧
    decode 0x000000000000000146D = .jpe (.one (.imm 0x5)) ∧
    decode 0x000000000000000146E = .jnp (.one (.imm 0x5)) := by decide

/-- 95_test_vectors.md, DIW encodings of CMP, INT and NOP. -/
theorem test_decode_compare_interrupt_nop :
    decode 0x00000000000000021B0 = .cmp (.two (.reg 0x08) (.imm 0x0)) ∧
    decode 0x0000000000000008471 = .int (.one (.imm 0x21)) ∧
    decode 0x0000000000000000032 = .nop .zero := by decide

/-- 95_test_vectors.md, the encoding of INVALID; R77, the unassigned numbers at both ends of their range. -/
theorem test_decode_invalid :
    decode 0x000000000000000003F = .invalid 0x3F ∧ decode 0x0000000000000000033 = .invalid 0x33 ∧
    decode 0x000000000000000003E = .invalid 0x3E := by decide

/-- MOV al, 255, bit by bit: V1, V0, T1, T0, NOPS, OPC (R71). -/
theorem test_decode_bits_mov :
    decode (0b00000000000000000000000011111111#32 ++
        0b00000000000000000000000000000011#32 ++ 0b0#1 ++ 0b1#1 ++ 0b10#2 ++ 0b000000#6) =
      .mov (.two (.reg 0x03) (.imm 0xFF)) := by decide

/-- SUB eax, ebx, bit by bit: V1, V0, T1, T0, NOPS, OPC (R71). -/
theorem test_decode_bits_sub :
    decode (0b00000000000000000000000000000100#32 ++
        0b00000000000000000000000000000000#32 ++ 0b1#1 ++ 0b1#1 ++ 0b10#2 ++ 0b000010#6) =
      .sub (.two (.reg 0x00) (.reg 0x04)) := by decide

/-- NOT ax, bit by bit: V1, V0, T1, T0, NOPS, OPC (R71). -/
theorem test_decode_bits_not :
    decode (0b00000000000000000000000000000000#32 ++
        0b00000000000000000000000000000001#32 ++ 0b0#1 ++ 0b1#1 ++ 0b01#2 ++ 0b001010#6) =
      .not (.one (.reg 0x01)) := by decide

/-- SAR eax, cl, bit by bit: V1, V0, T1, T0, NOPS, OPC (R71). -/
theorem test_decode_bits_sar :
    decode (0b00000000000000000000000000001011#32 ++
        0b00000000000000000000000000000000#32 ++ 0b1#1 ++ 0b1#1 ++ 0b10#2 ++ 0b001100#6) =
      .sar (.two (.reg 0x00) (.reg 0x0B)) := by decide

/-- PUSH ebx, bit by bit: V1, V0, T1, T0, NOPS, OPC (R71). -/
theorem test_decode_bits_push :
    decode (0b00000000000000000000000000000000#32 ++
        0b00000000000000000000000000000100#32 ++ 0b0#1 ++ 0b1#1 ++ 0b01#2 ++ 0b001111#6) =
      .push (.one (.reg 0x04)) := by decide

/-- JNZ 1, bit by bit: V1, V0, T1, T0, NOPS, OPC (R71). -/
theorem test_decode_bits_jnz :
    decode (0b00000000000000000000000000000000#32 ++
        0b00000000000000000000000000000001#32 ++ 0b0#1 ++ 0b0#1 ++ 0b01#2 ++ 0b010101#6) =
      .jnz (.one (.imm 0x1)) := by decide

/-- CMP ecx, 0, bit by bit: V1, V0, T1, T0, NOPS, OPC (R71). -/
theorem test_decode_bits_cmp :
    decode (0b00000000000000000000000000000000#32 ++
        0b00000000000000000000000000001000#32 ++ 0b0#1 ++ 0b1#1 ++ 0b10#2 ++ 0b110000#6) =
      .cmp (.two (.reg 0x08) (.imm 0x0)) := by decide

/-- INT 33, bit by bit: V1, V0, T1, T0, NOPS, OPC (R71). -/
theorem test_decode_bits_int :
    decode (0b00000000000000000000000000000000#32 ++
        0b00000000000000000000000000100001#32 ++ 0b0#1 ++ 0b0#1 ++ 0b01#2 ++ 0b110001#6) =
      .int (.one (.imm 0x21)) := by decide

/-- NOP, bit by bit: V1, V0, T1, T0, NOPS, OPC (R71). -/
theorem test_decode_bits_nop :
    decode (0b00000000000000000000000000000000#32 ++
        0b00000000000000000000000000000000#32 ++ 0b0#1 ++ 0b0#1 ++ 0b00#2 ++ 0b110010#6) =
      .nop .zero := by decide

/-- Slots at or beyond NOPS are not read (R80), and NOPS = 3 is "three or more" (R72). -/
theorem test_decode_ignored_bits :
    decode (0xFFFFFFFF#32 ++ 0xFFFFFFFF#32 ++ 1#1 ++ 1#1 ++ 0#2 ++ 0x32#6) = .nop .zero ∧
    decode (0xFFFFFFFF#32 ++ 0x00000005#32 ++ 1#1 ++ 0#1 ++ 1#2 ++ 0x11#6) = .jmp (.one (.imm 5)) ∧
    decode (0x00000001#32 ++ 0x00000000#32 ++ 0#1 ++ 1#1 ++ 3#2 ++ 0x00#6) = .mov (.many (.reg 0) (.imm 1)) := by decide

/-- A number of more than 74 bits is rejected by name; one of 74 bits is a word (R71). -/
theorem test_decode_rejects_wide :
    (∃ i, decodeNat (2 ^ 74 - 1) = .ok i) ∧ decodeNat (2 ^ 74) = .error .widerThanDiw ∧
    decodeTableWord 80 (2 ^ 74) = none ∧ decodeTableWord 80 0x32 = some (.nop .zero) :=
  ⟨⟨_, rfl⟩, rfl, rfl, rfl⟩

/-! ## One step of each instruction -/

/-- MOV-2. -/
theorem test_mov_into_ah :
    seen (step (running ({ RegBank.zero with eax := 0x123456FF }) (FlagBits.clear) 0x0000000000000000980)) =
      some ({ RegBank.zero with eax := 0x123400FF }, 0x000, 0x1, .noResult) := by decide

/-- MOV-6. -/
theorem test_mov_from_ah :
    seen (step (running ({ RegBank.zero with eax := 0xAABBCCDD }) (FlagBits.clear) 0x0000000080000001380)) =
      some ({ RegBank.zero with eax := 0xAABBCCDD, ebx := 0xCC }, 0x000, 0x1, .noResult) := by decide

/-- ADD-4. -/
theorem test_add_overflow_and_carry :
    seen (step (running ({ RegBank.zero with eax := 0x80000000 }) (FlagBits.clear) 0x0000000000000000381)) =
      some ({ RegBank.zero with eax := 0x0 }, 0x841, 0x1, .noResult) := by decide

/-- ADD-5. -/
theorem test_add_narrow_keeps_flags_of_32_bits :
    seen (step (running ({ RegBank.zero with eax := 0xFF }) (FlagBits.clear) 0x0000000040000000D81)) =
      some ({ RegBank.zero with eax := 0x0 }, 0x000, 0x1, .noResult) := by decide

/-- SUB-2. -/
theorem test_sub_borrow_clears_carry :
    seen (step (running ({ RegBank.zero with eax := 0x2, ebx := 0x3 }) (FlagBits.clear) 0x0000000100000000382)) =
      some ({ RegBank.zero with eax := 0xFFFFFFFF, ebx := 0x3 }, 0x080, 0x1, .noResult) := by decide

/-- SUB-4. -/
theorem test_sub_overflow :
    seen (step (running ({ RegBank.zero with eax := 0x80000000 }) (FlagBits.clear) 0x0000000040000000182)) =
      some ({ RegBank.zero with eax := 0x7FFFFFFF }, 0x801, 0x1, .noResult) := by decide

/-- MUL-6. -/
theorem test_mul_keeps_edx :
    seen (step (running ({ RegBank.zero with eax := 0x80000000, edx := 0x55 }) (FlagBits.clear) 0x0000000000000000843)) =
      some ({ RegBank.zero with eax := 0x0, edx := 0x55 }, 0x801, 0x1, .noResult) := by decide

/-- MUL-5. -/
theorem test_mul_by_view :
    seen (step (running ({ RegBank.zero with eax := 0x3, ecx := 0x1205 }) (FlagBits.clear) 0x0000000000000002D43)) =
      some ({ RegBank.zero with eax := 0xF, ecx := 0x1205 }, 0x000, 0x1, .noResult) := by decide

/-- DIV-6. -/
theorem test_div_by_view :
    seen (step (running ({ RegBank.zero with eax := 0x3E8, ecx := 0x10A }) (FlagBits.clear) 0x0000000000000002D44)) =
      some ({ RegBank.zero with eax := 0x64, ecx := 0x10A }, 0x000, 0x1, .noResult) := by decide

/-- DIV-4. -/
theorem test_div_by_zero :
    seen (step (running ({ RegBank.zero with eax := 0x0 }) (FlagBits.clear) 0x0000000000000000144)) =
      some ({ RegBank.zero with eax := 0x0 }, 0x000, 0x0, .fault .arithmeticError 0) := by decide

/-- INC-1. -/
theorem test_inc_wraps_and_keeps_carry :
    seen (step (running ({ RegBank.zero with eax := 0xFFFFFFFF }) ({ FlagBits.clear with cf := true }) 0x0000000000000000145)) =
      some ({ RegBank.zero with eax := 0x0 }, 0x001, 0x1, .noResult) := by decide

/-- INC-2. -/
theorem test_inc_view_does_not_carry_out :
    seen (step (running ({ RegBank.zero with eax := 0x12FF }) (FlagBits.clear) 0x0000000000000000D45)) =
      some ({ RegBank.zero with eax := 0x1200 }, 0x000, 0x1, .noResult) := by decide

/-- DEC-1. -/
theorem test_dec_wraps_and_keeps_zero :
    seen (step (running ({ RegBank.zero with eax := 0x0 }) ({ FlagBits.clear with zf := true }) 0x0000000000000000146)) =
      some ({ RegBank.zero with eax := 0xFFFFFFFF }, 0x040, 0x1, .noResult) := by decide

/-- DEC-2. -/
theorem test_dec_view_does_not_borrow_out :
    seen (step (running ({ RegBank.zero with eax := 0x1200 }) (FlagBits.clear) 0x0000000000000000D46)) =
      some ({ RegBank.zero with eax := 0x12FF }, 0x000, 0x1, .noResult) := by decide

/-- AND-2. -/
theorem test_and_clears_carry_and_overflow :
    seen (step (running ({ RegBank.zero with eax := 0xF0F0F0F0 }) ({ FlagBits.clear with cf := true, of := true }) 0x03C3C3C3C0000000187)) =
      some ({ RegBank.zero with eax := 0x0 }, 0x044, 0x1, .noResult) := by decide

/-- AND-4. -/
theorem test_and_view :
    seen (step (running ({ RegBank.zero with eax := 0xFF, ebx := 0x80000001 }) (FlagBits.clear) 0x0000000100000000F87)) =
      some ({ RegBank.zero with eax := 0x1, ebx := 0x80000001 }, 0x000, 0x1, .noResult) := by decide

/-- OR-2. -/
theorem test_or_sign_of_32_bits :
    seen (step (running ({ RegBank.zero with eax := 0x55 }) (FlagBits.clear) 0x3FFFFFFFC0000000D88)) =
      some ({ RegBank.zero with eax := 0xFF }, 0x084, 0x1, .noResult) := by decide

/-- OR-3. -/
theorem test_or_view :
    seen (step (running ({ RegBank.zero with eax := 0x0 }) (FlagBits.clear) 0x0000004000000000D88)) =
      some ({ RegBank.zero with eax := 0x0 }, 0x004, 0x1, .noResult) := by decide

/-- XOR-1. -/
theorem test_xor_self :
    seen (step (running ({ RegBank.zero with eax := 0x12345678 }) ({ FlagBits.clear with cf := true, of := true, sf := true }) 0x0000000000000000389)) =
      some ({ RegBank.zero with eax := 0x0 }, 0x044, 0x1, .noResult) := by decide

/-- XOR-3. -/
theorem test_xor_ah :
    seen (step (running ({ RegBank.zero with eax := 0xFF00 }) (FlagBits.clear) 0x00000003C0000000989)) =
      some ({ RegBank.zero with eax := 0xF000 }, 0x004, 0x1, .noResult) := by decide

/-- NOT-1. -/
theorem test_not_keeps_flags :
    seen (step (running ({ RegBank.zero with eax := 0x12345678 }) ({ FlagBits.clear with zf := true }) 0x000000000000000014A)) =
      some ({ RegBank.zero with eax := 0xEDCBA987 }, 0x040, 0x1, .noResult) := by decide

/-- NOT-2. -/
theorem test_not_view :
    seen (step (running ({ RegBank.zero with eax := 0x1234 }) (FlagBits.clear) 0x0000000000000000D4A)) =
      some ({ RegBank.zero with eax := 0x12CB }, 0x000, 0x1, .noResult) := by decide

/-- SAL-SHL-2. -/
theorem test_sal_by_31 :
    seen (step (running ({ RegBank.zero with eax := 0x1 }) (FlagBits.clear) 0x00000007C000000018B)) =
      some ({ RegBank.zero with eax := 0x80000000 }, 0x884, 0x1, .noResult) := by decide

/-- SAL-SHL-10. -/
theorem test_sal_view :
    seen (step (running ({ RegBank.zero with eax := 0x80 }) (FlagBits.clear) 0x0000000040000000D8B)) =
      some ({ RegBank.zero with eax := 0x0 }, 0x004, 0x1, .noResult) := by decide

/-- SAL-SHL-4. -/
theorem test_shl_by_32_has_no_effect :
    seen (step (running ({ RegBank.zero with eax := 0x12345678 }) ({ FlagBits.clear with cf := true, zf := true }) 0x000000080000000018D)) =
      some ({ RegBank.zero with eax := 0x12345678 }, 0x041, 0x1, .noResult) := by decide

/-- SAL-SHL-8. -/
theorem test_shl_by_33_is_by_1 :
    seen (step (running ({ RegBank.zero with eax := 0x12345678, ecx := 0x21 }) (FlagBits.clear) 0x00000002C000000038D)) =
      some ({ RegBank.zero with eax := 0x2468ACF0, ecx := 0x21 }, 0x004, 0x1, .noResult) := by decide

/-- SAR-1. -/
theorem test_sar_keeps_the_sign :
    seen (step (running ({ RegBank.zero with eax := 0x80000001 }) (FlagBits.clear) 0x000000004000000018C)) =
      some ({ RegBank.zero with eax := 0xC0000000 }, 0x085, 0x1, .noResult) := by decide

/-- SAR-4. -/
theorem test_sar_view_is_positive :
    seen (step (running ({ RegBank.zero with eax := 0x80 }) (FlagBits.clear) 0x0000000040000000D8C)) =
      some ({ RegBank.zero with eax := 0x40 }, 0x000, 0x1, .noResult) := by decide

/-- SHR-1. -/
theorem test_shr_overflow_is_bit_31 :
    seen (step (running ({ RegBank.zero with eax := 0x80000001 }) (FlagBits.clear) 0x000000004000000018E)) =
      some ({ RegBank.zero with eax := 0x40000000 }, 0x805, 0x1, .noResult) := by decide

/-- SHR-5. -/
theorem test_shr_by_0_has_no_effect :
    seen (step (running ({ RegBank.zero with eax := 0x80000000 }) ({ FlagBits.clear with cf := true }) 0x000000000000000018E)) =
      some ({ RegBank.zero with eax := 0x80000000 }, 0x001, 0x1, .noResult) := by decide

/-- JMP-3; `pc` is beyond the store, so the next step ends the drain. -/
theorem test_jmp_to_register :
    seen (step (running ({ RegBank.zero with eax := 0x9 }) (FlagBits.clear) 0x0000000000000000151)) =
      some ({ RegBank.zero with eax := 0x9 }, 0x000, 0x9, .noResult) := by decide

/-- JMP-4. -/
theorem test_jmp_to_last_index :
    seen (step (running (RegBank.zero) (FlagBits.clear) 0x000000003FFFFFFFC51)) =
      some (RegBank.zero, 0x000, 0xFFFFFFFF, .noResult) := by decide

/-- CMP-1; PF keeps its value. -/
theorem test_cmp_stores_nothing :
    seen (step (running ({ RegBank.zero with eax := 0x5, ebx := 0x3 }) ({ FlagBits.clear with cf := true, zf := true, pf := true }) 0x00000001000000003B0)) =
      some ({ RegBank.zero with eax := 0x5, ebx := 0x3 }, 0x004, 0x1, .noResult) := by decide

/-- CMP-5. -/
theorem test_cmp_borrow_and_overflow :
    seen (step (running ({ RegBank.zero with eax := 0x1 }) (FlagBits.clear) 0x20000000000000001B0)) =
      some ({ RegBank.zero with eax := 0x1 }, 0x881, 0x1, .noResult) := by decide

/-- NOP-INVALID-1. -/
theorem test_nop_has_no_effect :
    seen (step (running (RegBank.zero) (FlagBits.clear) 0x0000000000000000032)) =
      some (RegBank.zero, 0x000, 0x1, .noResult) := by decide

/-- NOP-INVALID-2. -/
theorem test_nop_with_an_operand :
    seen (step (running (RegBank.zero) (FlagBits.clear) 0x0000000000000000472)) =
      some (RegBank.zero, 0x000, 0x0, .fault .operandArity 0) := by decide

/-- NOP-INVALID-4. -/
theorem test_invalid_with_operands :
    seen (step (running (RegBank.zero) (FlagBits.clear) 0x00000000400000001BF)) =
      some (RegBank.zero, 0x000, 0x0, .fault .decodeAmbiguity 0) := by decide

/-- R77: 0x33 behaves as INVALID. -/
theorem test_unassigned_number :
    seen (step (running (RegBank.zero) (FlagBits.clear) 0x0000000000000000033)) =
      some (RegBank.zero, 0x000, 0x0, .fault .decodeAmbiguity 0) := by decide

/-- JCC-3. -/
theorem test_register_check_before_the_condition :
    seen (step (running (RegBank.zero) (FlagBits.clear) 0x0000000000000004954)) =
      some (RegBank.zero, 0x000, 0x0, .fault .registerError 0) := by decide

/-- 95_test_vectors.md, the table of the conditional jumps: JE taken and not taken. -/
theorem test_je :
    seenPc (step (running RegBank.zero ({ FlagBits.clear with zf := true }) 0x0000000000000001452)) = some 5 ∧
    seenPc (step (running RegBank.zero (FlagBits.clear) 0x0000000000000001452)) = some 1 := by decide

/-- 95_test_vectors.md, the table of the conditional jumps: JZ taken and not taken. -/
theorem test_jz :
    seenPc (step (running RegBank.zero ({ FlagBits.clear with zf := true }) 0x0000000000000001453)) = some 5 ∧
    seenPc (step (running RegBank.zero (FlagBits.clear) 0x0000000000000001453)) = some 1 := by decide

/-- 95_test_vectors.md, the table of the conditional jumps: JNE taken and not taken. -/
theorem test_jne :
    seenPc (step (running RegBank.zero (FlagBits.clear) 0x0000000000000001454)) = some 5 ∧
    seenPc (step (running RegBank.zero ({ FlagBits.clear with zf := true }) 0x0000000000000001454)) = some 1 := by decide

/-- 95_test_vectors.md, the table of the conditional jumps: JNZ taken and not taken. -/
theorem test_jnz :
    seenPc (step (running RegBank.zero (FlagBits.clear) 0x0000000000000001455)) = some 5 ∧
    seenPc (step (running RegBank.zero ({ FlagBits.clear with zf := true }) 0x0000000000000001455)) = some 1 := by decide

/-- 95_test_vectors.md, the table of the conditional jumps: JA taken and not taken. -/
theorem test_ja :
    seenPc (step (running RegBank.zero (FlagBits.clear) 0x0000000000000001456)) = some 5 ∧
    seenPc (step (running RegBank.zero ({ FlagBits.clear with cf := true }) 0x0000000000000001456)) = some 1 ∧
    seenPc (step (running RegBank.zero ({ FlagBits.clear with zf := true }) 0x0000000000000001456)) = some 1 ∧
    seenPc (step (running RegBank.zero ({ FlagBits.clear with cf := true, zf := true }) 0x0000000000000001456)) = some 1 := by decide

/-- 95_test_vectors.md, the table of the conditional jumps: JNBE taken and not taken. The last row is that of its other name. -/
theorem test_jnbe :
    seenPc (step (running RegBank.zero (FlagBits.clear) 0x0000000000000001457)) = some 5 ∧
    seenPc (step (running RegBank.zero ({ FlagBits.clear with cf := true }) 0x0000000000000001457)) = some 1 ∧
    seenPc (step (running RegBank.zero ({ FlagBits.clear with zf := true }) 0x0000000000000001457)) = some 1 := by decide

/-- 95_test_vectors.md, the table of the conditional jumps: JAE taken and not taken. -/
theorem test_jae :
    seenPc (step (running RegBank.zero (FlagBits.clear) 0x0000000000000001458)) = some 5 ∧
    seenPc (step (running RegBank.zero ({ FlagBits.clear with cf := true }) 0x0000000000000001458)) = some 1 := by decide

/-- 95_test_vectors.md, the table of the conditional jumps: JNB taken and not taken. -/
theorem test_jnb :
    seenPc (step (running RegBank.zero (FlagBits.clear) 0x0000000000000001459)) = some 5 ∧
    seenPc (step (running RegBank.zero ({ FlagBits.clear with cf := true }) 0x0000000000000001459)) = some 1 := by decide

/-- 95_test_vectors.md, the table of the conditional jumps: JB taken and not taken. -/
theorem test_jb :
    seenPc (step (running RegBank.zero ({ FlagBits.clear with cf := true }) 0x000000000000000145A)) = some 5 ∧
    seenPc (step (running RegBank.zero (FlagBits.clear) 0x000000000000000145A)) = some 1 := by decide

/-- 95_test_vectors.md, the table of the conditional jumps: JNAE taken and not taken. -/
theorem test_jnae :
    seenPc (step (running RegBank.zero ({ FlagBits.clear with cf := true }) 0x000000000000000145B)) = some 5 ∧
    seenPc (step (running RegBank.zero (FlagBits.clear) 0x000000000000000145B)) = some 1 := by decide

/-- 95_test_vectors.md, the table of the conditional jumps: JBE taken and not taken. -/
theorem test_jbe :
    seenPc (step (running RegBank.zero ({ FlagBits.clear with cf := true }) 0x000000000000000145C)) = some 5 ∧
    seenPc (step (running RegBank.zero (FlagBits.clear) 0x000000000000000145C)) = some 1 ∧
    seenPc (step (running RegBank.zero ({ FlagBits.clear with zf := true }) 0x000000000000000145C)) = some 5 := by decide

/-- 95_test_vectors.md, the table of the conditional jumps: JNA taken and not taken. The last row is that of its other name. -/
theorem test_jna :
    seenPc (step (running RegBank.zero ({ FlagBits.clear with cf := true }) 0x000000000000000145D)) = some 5 ∧
    seenPc (step (running RegBank.zero (FlagBits.clear) 0x000000000000000145D)) = some 1 ∧
    seenPc (step (running RegBank.zero ({ FlagBits.clear with zf := true }) 0x000000000000000145D)) = some 5 := by decide

/-- 95_test_vectors.md, the table of the conditional jumps: JG taken and not taken. -/
theorem test_jg :
    seenPc (step (running RegBank.zero (FlagBits.clear) 0x000000000000000145E)) = some 5 ∧
    seenPc (step (running RegBank.zero ({ FlagBits.clear with zf := true }) 0x000000000000000145E)) = some 1 ∧
    seenPc (step (running RegBank.zero ({ FlagBits.clear with sf := true, of := true }) 0x000000000000000145E)) = some 5 ∧
    seenPc (step (running RegBank.zero ({ FlagBits.clear with sf := true }) 0x000000000000000145E)) = some 1 ∧
    seenPc (step (running RegBank.zero ({ FlagBits.clear with zf := true, sf := true, of := true }) 0x000000000000000145E)) = some 1 := by decide

/-- 95_test_vectors.md, the table of the conditional jumps: JNLE taken and not taken. -/
theorem test_jnle :
    seenPc (step (running RegBank.zero (FlagBits.clear) 0x000000000000000145F)) = some 5 ∧
    seenPc (step (running RegBank.zero ({ FlagBits.clear with zf := true }) 0x000000000000000145F)) = some 1 ∧
    seenPc (step (running RegBank.zero ({ FlagBits.clear with of := true }) 0x000000000000000145F)) = some 1 := by decide

/-- 95_test_vectors.md, the table of the conditional jumps: JGE taken and not taken. -/
theorem test_jge :
    seenPc (step (running RegBank.zero (FlagBits.clear) 0x0000000000000001460)) = some 5 ∧
    seenPc (step (running RegBank.zero ({ FlagBits.clear with sf := true }) 0x0000000000000001460)) = some 1 ∧
    seenPc (step (running RegBank.zero ({ FlagBits.clear with sf := true, of := true }) 0x0000000000000001460)) = some 5 ∧
    seenPc (step (running RegBank.zero ({ FlagBits.clear with of := true }) 0x0000000000000001460)) = some 1 := by decide

/-- 95_test_vectors.md, the table of the conditional jumps: JNL taken and not taken. The last row is that of its other name. -/
theorem test_jnl :
    seenPc (step (running RegBank.zero (FlagBits.clear) 0x0000000000000001461)) = some 5 ∧
    seenPc (step (running RegBank.zero ({ FlagBits.clear with sf := true }) 0x0000000000000001461)) = some 1 ∧
    seenPc (step (running RegBank.zero ({ FlagBits.clear with of := true }) 0x0000000000000001461)) = some 1 := by decide

/-- 95_test_vectors.md, the table of the conditional jumps: JL taken and not taken. -/
theorem test_jl :
    seenPc (step (running RegBank.zero ({ FlagBits.clear with sf := true }) 0x0000000000000001462)) = some 5 ∧
    seenPc (step (running RegBank.zero (FlagBits.clear) 0x0000000000000001462)) = some 1 ∧
    seenPc (step (running RegBank.zero ({ FlagBits.clear with of := true }) 0x0000000000000001462)) = some 5 ∧
    seenPc (step (running RegBank.zero ({ FlagBits.clear with sf := true, of := true }) 0x0000000000000001462)) = some 1 := by decide

/-- 95_test_vectors.md, the table of the conditional jumps: JNGE taken and not taken. The last row is that of its other name. -/
theorem test_jnge :
    seenPc (step (running RegBank.zero ({ FlagBits.clear with sf := true }) 0x0000000000000001463)) = some 5 ∧
    seenPc (step (running RegBank.zero (FlagBits.clear) 0x0000000000000001463)) = some 1 ∧
    seenPc (step (running RegBank.zero ({ FlagBits.clear with of := true }) 0x0000000000000001463)) = some 5 := by decide

/-- 95_test_vectors.md, the table of the conditional jumps: JLE taken and not taken. -/
theorem test_jle :
    seenPc (step (running RegBank.zero ({ FlagBits.clear with zf := true }) 0x0000000000000001464)) = some 5 ∧
    seenPc (step (running RegBank.zero (FlagBits.clear) 0x0000000000000001464)) = some 1 ∧
    seenPc (step (running RegBank.zero ({ FlagBits.clear with sf := true }) 0x0000000000000001464)) = some 5 ∧
    seenPc (step (running RegBank.zero ({ FlagBits.clear with sf := true, of := true }) 0x0000000000000001464)) = some 1 := by decide

/-- 95_test_vectors.md, the table of the conditional jumps: JNG taken and not taken. -/
theorem test_jng :
    seenPc (step (running RegBank.zero ({ FlagBits.clear with zf := true }) 0x0000000000000001465)) = some 5 ∧
    seenPc (step (running RegBank.zero (FlagBits.clear) 0x0000000000000001465)) = some 1 ∧
    seenPc (step (running RegBank.zero ({ FlagBits.clear with of := true }) 0x0000000000000001465)) = some 5 := by decide

/-- 95_test_vectors.md, the table of the conditional jumps: JC taken and not taken. -/
theorem test_jc :
    seenPc (step (running RegBank.zero ({ FlagBits.clear with cf := true }) 0x0000000000000001466)) = some 5 ∧
    seenPc (step (running RegBank.zero (FlagBits.clear) 0x0000000000000001466)) = some 1 := by decide

/-- 95_test_vectors.md, the table of the conditional jumps: JNC taken and not taken. -/
theorem test_jnc :
    seenPc (step (running RegBank.zero (FlagBits.clear) 0x0000000000000001467)) = some 5 ∧
    seenPc (step (running RegBank.zero ({ FlagBits.clear with cf := true }) 0x0000000000000001467)) = some 1 := by decide

/-- 95_test_vectors.md, the table of the conditional jumps: JO taken and not taken. -/
theorem test_jo :
    seenPc (step (running RegBank.zero ({ FlagBits.clear with of := true }) 0x0000000000000001468)) = some 5 ∧
    seenPc (step (running RegBank.zero (FlagBits.clear) 0x0000000000000001468)) = some 1 := by decide

/-- 95_test_vectors.md, the table of the conditional jumps: JNO taken and not taken. -/
theorem test_jno :
    seenPc (step (running RegBank.zero (FlagBits.clear) 0x0000000000000001469)) = some 5 ∧
    seenPc (step (running RegBank.zero ({ FlagBits.clear with of := true }) 0x0000000000000001469)) = some 1 := by decide

/-- 95_test_vectors.md, the table of the conditional jumps: JS taken and not taken. -/
theorem test_js :
    seenPc (step (running RegBank.zero ({ FlagBits.clear with sf := true }) 0x000000000000000146A)) = some 5 ∧
    seenPc (step (running RegBank.zero (FlagBits.clear) 0x000000000000000146A)) = some 1 := by decide

/-- 95_test_vectors.md, the table of the conditional jumps: JNS taken and not taken. -/
theorem test_jns :
    seenPc (step (running RegBank.zero (FlagBits.clear) 0x000000000000000146B)) = some 5 ∧
    seenPc (step (running RegBank.zero ({ FlagBits.clear with sf := true }) 0x000000000000000146B)) = some 1 := by decide

/-- 95_test_vectors.md, the table of the conditional jumps: JP taken and not taken. -/
theorem test_jp :
    seenPc (step (running RegBank.zero ({ FlagBits.clear with pf := true }) 0x000000000000000146C)) = some 5 ∧
    seenPc (step (running RegBank.zero (FlagBits.clear) 0x000000000000000146C)) = some 1 := by decide

/-- 95_test_vectors.md, the table of the conditional jumps: JPE taken and not taken. -/
theorem test_jpe :
    seenPc (step (running RegBank.zero ({ FlagBits.clear with pf := true }) 0x000000000000000146D)) = some 5 ∧
    seenPc (step (running RegBank.zero (FlagBits.clear) 0x000000000000000146D)) = some 1 := by decide

/-- 95_test_vectors.md, the table of the conditional jumps: JNP taken and not taken. -/
theorem test_jnp :
    seenPc (step (running RegBank.zero (FlagBits.clear) 0x000000000000000146E)) = some 5 ∧
    seenPc (step (running RegBank.zero ({ FlagBits.clear with pf := true }) 0x000000000000000146E)) = some 1 := by decide

/-- 95_test_vectors.md, the table of the conditional jumps: JPO taken and not taken. -/
theorem test_jpo :
    seenPc (step (running RegBank.zero (FlagBits.clear) 0x000000000000000146F)) = some 5 ∧
    seenPc (step (running RegBank.zero ({ FlagBits.clear with pf := true }) 0x000000000000000146F)) = some 1 := by decide

/-! ## Stack and interrupt steps -/

/-- A running state with this operand stack, top first. -/
def withStack (l : List Word) (s : State) : State := { s with stack := l }

/-- PUSH-POP-2: the pushed value is the zero-extended view. -/
theorem test_push_view :
    seenStack (step (running { RegBank.zero with eax := 0x1234 } FlagBits.clear 0x0000000000000000D4F)) = some [0x34] := by
  decide

/-- PUSH-POP-1: ESP is an ordinary register. -/
theorem test_push_keeps_esp :
    seen (step (running { RegBank.zero with esp := 0x100 } FlagBits.clear 0x000000000000000144F)) =
      some ({ RegBank.zero with esp := 0x100 }, 0, 1, .noResult) := by decide

/-- PUSH-POP-7: the low bits go into the view, and the next word is on top. -/
theorem test_pop_into_ah :
    seen (step (withStack [0x1FF, 1] (running RegBank.zero FlagBits.clear 0x0000000000000000950))) =
      some ({ RegBank.zero with eax := 0xFF00 }, 0, 1, .noResult) ∧
    seenStack (step (withStack [0x1FF, 1] (running RegBank.zero FlagBits.clear 0x0000000000000000950))) = some [1] := by
  decide

/-- PUSH-POP-5. -/
theorem test_pop_empty :
    seen (step (running { RegBank.zero with eax := 0x12345678 } FlagBits.clear 0x0000000000000000150)) =
      some ({ RegBank.zero with eax := 0x12345678 }, 0, 0, .fault .stackUnderflow 0) := by decide

/-- A running state of `INT 2` whose host has handlers 1 (binds nothing, writes AL := 0x41), 2 (binds 2) and 3 (binds 2). -/
def interrupted (registry : List Registration) (table : List HandlerRule) (eax : Word) : State :=
  { running { RegBank.zero with eax := eax } FlagBits.clear 0x0000000000000000871 with registry := registry, handlers := table }

/-- The event of `INT 2` with this EAX and every other register 0. -/
def event2 (eax : Word) : InterruptEvent := ⟨2, { RegBank.zero with eax := eax }⟩

/-- INT-4: a handler that binds nothing is called too, and returns no write. -/
theorem test_int_calls_every_handler :
    seen (step (interrupted [⟨0, []⟩, ⟨1, [2]⟩]
        [⟨0, event2 0, .returns ⟨[], false⟩⟩, ⟨1, event2 0, .returns ⟨[(3, 0x41)], false⟩⟩] 0)) =
      some ({ RegBank.zero with eax := 0x41 }, 0, 1, .noResult) := by decide

/-- INT-5: the write of the first handler stays when the second one fails. -/
theorem test_int_failure_keeps_writes :
    seen (step (interrupted [⟨1, [2]⟩, ⟨2, []⟩]
        [⟨1, event2 0, .returns ⟨[(3, 0x41)], false⟩⟩, ⟨2, event2 0x41, .returns ⟨[], true⟩⟩] 0)) =
      some ({ RegBank.zero with eax := 0x41 }, 0, 0, .fault .handlerFault 0) := by decide

/-- R61: `Top()` gives the head and removes nothing; on an empty stack it raises StackUnderflow. -/
theorem test_stackTop :
    seenStack (stackTop (withStack [5, 6] State.reset) fun v => .next (withStack [v, 5, 6] State.reset)) = some [5, 5, 6] ∧
    seen (stackTop State.reset fun _ => .next State.reset) =
      some (RegBank.zero, 0, 0, .fault .stackUnderflow 0) := by decide

/-! ## The machine -/

/-- From reset the core stays idle, and the next step after `withFetchWord` runs the word. -/
theorem test_reset_runs_the_placed_word :
    step State.reset = .next State.reset ∧
    seen (step (State.reset.withFetchWord 80 0x048D159E00000000180)) =
      some ({ RegBank.zero with eax := 0x12345678 }, 0, 1, .noResult) := ⟨rfl, by decide⟩

/-- `execute` appends and drains: after the call the instruction runs, then the drain ends with Halted(1) (R100, R101, R104). -/
theorem test_execute_then_halt :
    (match step { State.reset with turns := [.call (.execute 0x32)] } with
      | .next s => s.store == [0x32] && s.mode == .draining && (match step s with
        | .next t => t.pc == 1 && (match step t with
          | .next u => u.last == .halted 1 && u.mode == .idle && u.reply == some (.halted 1)
          | _ => false)
        | _ => false)
      | _ => false) = true := by decide

/-! ## Witnesses: states and operands that meet the hypotheses of each statement together -/

/-- Draining at index 0 of a store of one word. -/
def base : State := running { RegBank.zero with eax := 7, ebx := 0x80000000 } { FlagBits.clear with af := true } 0x32

/-- Unresolved codes at the ends of the table's gaps and beyond it (for the two statements on views and the one on codes). -/
theorem witness_unresolved_codes :
    resolveCode 0x12 = none ∧ resolveCode 0x1F = none ∧ resolveCode 0x20 = none ∧ resolveCode 0xFFFFFFFF = none ∧
    0x20 ≤ (0x20 : Word).toNat := by decide

theorem witness_DecodingAnEncodedInstructionGivesItBack :
    (Instr.mov (.two (.reg 0x03) (.imm 0xFFFFFFFF))).WellFormed ∧ (Instr.invalid 0x33).WellFormed ∧
    (Instr.invalid 0x3F).Encodable ∧ (Instr.mov (.many (.imm 0) (.reg 0x20))).Encodable ∧
    ¬ (Instr.mov (.many (.imm 0) (.reg 0x20))).WellFormed := by
  refine ⟨by decide, by decide, by decide, trivial, by decide⟩

/-- Records of 0, 2 and 4 operands pack; one with a floating-point literal in its third place does not. -/
theorem witness_PackedRecordsKeepTheirOperands :
    packRecord ⟨0x32, []⟩ = some 0x32 ∧
    packRecord ⟨0x00, [.reg 3, .imm 0xFF]⟩ = some 0x0000003FC0000000D80 ∧
    packRecord ⟨0x00, [.reg 3, .imm 0xFF, .imm 0, .imm 0]⟩ = some 0x0000003FC0000000DC0 ∧
    packRecord ⟨0x00, [.reg 3, .imm 0xFF, .float]⟩ = none := by decide

/-- Each kind of failed check, with both slots (PRI-2 to PRI-8). -/
theorem witness_ChecksReportTheFirstError :
    checkOperands [.reg, .regImm] (.one (.imm 1)) = some (.arity 1) ∧
    checkOperands [.reg, .regImm] (.many (.reg 0x12) (.imm 1)) = some (.arity 3) ∧
    checkOperands [.reg, .regImm] (.two (.imm 1) (.reg 0x12)) = some (.kind 0) ∧
    checkOperands [.reg, .regImm] (.two (.reg 0x12) (.reg 0x20)) = some (.register 0) ∧
    checkOperands [.reg, .regImm] (.two (.reg 0x1D) (.reg 0x1E)) = some (.register 1) := by decide

/-- For each signature, operands that fail its checks (the hypothesis of ChecksFirst). -/
theorem witness_ChecksFirst :
    checkOperands [.reg, .regImm] (.two (.imm 0) (.imm 0)) = some (.kind 0) ∧
    checkOperands [.regImm] .zero = some (.arity 0) ∧ checkOperands [.regImm] (.one (.reg 0x20)) = some (.register 0) ∧
    checkOperands [.reg] (.one (.imm 5)) = some (.kind 0) ∧ checkOperands [.imm] (.one (.reg 0)) = some (.kind 0) ∧
    checkOperands [] (.one (.imm 1)) = some (.arity 1) := by decide

theorem witness_AFailedCheckIsRaisedAndNothingElseHappens :
    signatureOf (.int .zero) = some [.imm] ∧ checkOperands [.imm] (operandsOf (.int .zero)) = some (.arity 0) ∧
    signatureOf (.int (.one (.reg 0))) = some [.imm] ∧
    checkOperands [.imm] (operandsOf (.int (.one (.reg 0)))) = some (.kind 0) ∧
    signatureOf (.cmp (.two (.reg 0) (.reg 0x20))) = some [.reg, .regImm] ∧
    checkOperands [.reg, .regImm] (operandsOf (.cmp (.two (.reg 0) (.reg 0x20)))) = some (.register 1) := by decide

/-- A division by zero ends the drain; so does INT with a bad operand, with no bound handler, with a handler that fails after a
write, and with one whose second write has an unresolved code. -/
theorem witness_AnErrorCommitsNothingButHandlerWrites :
    (∃ t, base.mode = .draining ∧ exec (.div (.one (.imm 0))) base = .next t ∧ t.mode = .idle) ∧
    (∃ t, exec (.int .zero) base = .next t ∧ t.mode = .idle) ∧
    (∃ t, exec (.int (.one (.imm 2))) base = .next t ∧ t.mode = .idle ∧ ∀ x ∈ base.registry, (2 : Word) ∉ x.binds) ∧
    (∃ s t, s.mode = .draining ∧ exec (.int (.one (.imm 2))) s = .next t ∧ t.mode = .idle ∧
      (∃ x ∈ s.registry, (2 : Word) ∈ x.binds) ∧ t.regs ≠ s.regs ∧ t.last = .fault .handlerFault 0) ∧
    ∃ s t, s.mode = .draining ∧ exec (.int (.one (.imm 2))) s = .next t ∧ t.mode = .idle ∧
      (∃ x ∈ s.registry, (2 : Word) ∈ x.binds) ∧ t.regs ≠ s.regs ∧ t.last = .fault .registerError 0 := by
  refine ⟨⟨_, rfl, rfl, rfl⟩, ⟨_, rfl, rfl⟩, ⟨_, rfl, rfl, by decide⟩,
    ⟨interrupted [⟨1, [2]⟩] [⟨1, event2 0, .returns ⟨[(3, 0x41)], true⟩⟩] 0, _, rfl, rfl, rfl, ?_⟩,
    ⟨interrupted [⟨1, [2]⟩] [⟨1, event2 0, .returns ⟨[(3, 0x41), (0x12, 1)], false⟩⟩] 0, _, rfl, rfl, rfl, ?_⟩⟩ <;>
  exact ⟨by decide, by decide, rfl⟩

/-- P6: the error of `DIV 0`, on an unbounded store; and INT's own OperandArity and OperandKind. -/
theorem witness_AnErrorOtherThanFromHandlersRecurs :
    (∃ t : State, step (running RegBank.zero FlagBits.clear 0x0000000000000000044) = .next t ∧ t.mode = .idle ∧
      t.last = .fault .arithmeticError 0 ∧ t.reply = some (.fault .arithmeticError 0 .nothing) ∧
      t.params.storeCapacity = none) ∧
    (∃ t : State, step (running RegBank.zero FlagBits.clear 0x0000000000000000031) = .next t ∧ t.mode = .idle ∧
      t.last = .fault .operandArity 0 ∧ t.reply = some (.fault .operandArity 0 (.count 0))) ∧
    ∃ t : State, step (running RegBank.zero FlagBits.clear 0x0000000000000000171) = .next t ∧ t.mode = .idle ∧
      t.last = .fault .operandKind 0 ∧ t.reply = some (.fault .operandKind 0 (.slot 0)) :=
  ⟨⟨_, rfl, rfl, rfl, rfl, rfl⟩, ⟨_, rfl, rfl, rfl, rfl⟩, ⟨_, rfl, rfl, rfl, rfl⟩⟩

theorem witness_DivWritesTheQuotientOrRaises :
    srcVal (.reg .eax) base.regs ≠ 0 ∧ srcVal (.imm 1) base.regs ≠ 0 ∧ srcVal (.imm 0) base.regs = 0 ∧
    srcVal (.reg .bl) base.regs = 0 := by decide

/-- An unbounded stack, one with room for exactly one more word, and a full one (also for PushThenPopRestoresTheView). -/
theorem witness_PushPutsTheValueOnTopOrRaises :
    (∀ n, base.params.stackCapacity = some n → base.stack.length < n) ∧
    (∀ n, ({ base with params := ⟨some 1, none⟩ } : State).params.stackCapacity = some n → base.stack.length < n) ∧
    ({ base with params := ⟨some 1, none⟩, stack := [5] } : State).params.stackCapacity = some 1 := by
  refine ⟨fun n h => (by cases h), fun n h => (by cases h; decide), rfl⟩

theorem witness_PopTakesTheTopOrRaises :
    (withStack [5, 6] base).stack = 5 :: [6] ∧ base.stack = [] := ⟨rfl, rfl⟩

theorem witness_AddThenSubRestoresTheRegister : viewOf .eax = .full ∧ viewOf .ebp = .full := ⟨rfl, rfl⟩

/-- MOV writes no flag, ADD every one but PF and AF, and an error none. -/
theorem witness_UnwrittenFlagsKeepTheirValue :
    (∃ t, exec (.add (dstSrc .eax (.imm 1))) base = .next t ∧ FlagName.pf ∉ flagsWritten (.add (dstSrc .eax (.imm 1))) ∧
      flagValue .af t.flags = true) ∧
    ∃ t, exec (.div (.one (.imm 0))) base = .next t ∧ FlagName.cf ∉ flagsWritten (.div (.one (.imm 0))) :=
  ⟨⟨_, rfl, by decide, rfl⟩, ⟨_, rfl, by decide⟩⟩

theorem witness_NoStepChangesTheAuxiliaryFlag : ∃ t, step base = .next t ∧ base.flags.af = true := ⟨_, rfl, rfl⟩

/-- INT-4's handlers. -/
def twoHandlers : State :=
  interrupted [⟨0, []⟩, ⟨1, [2]⟩] [⟨0, event2 0, .returns ⟨[], false⟩⟩, ⟨1, event2 0, .returns ⟨[(3, 0x41)], false⟩⟩] 0

theorem witness_IntCallsEveryHandlerAndCompletes :
    (∃ e ∈ twoHandlers.registry, 2 ∈ e.binds) ∧
    HandlersGive twoHandlers.handlers 2 twoHandlers.registry twoHandlers.regs { RegBank.zero with eax := 0x41 } :=
  ⟨⟨⟨1, [2]⟩, by decide, by decide⟩,
    ⟨⟨[], false⟩, RegBank.zero, by decide, rfl, rfl, ⟨[(3, 0x41)], false⟩, _, by decide, rfl, ⟨.al, rfl, rfl⟩, rfl⟩⟩

theorem witness_IntWithoutABoundHandlerRaises :
    (∀ e ∈ base.registry, (2 : Word) ∉ e.binds) ∧ ∀ e ∈ twoHandlers.registry, (3 : Word) ∉ e.binds := by decide

/-- After handler 0, which writes nothing: handler 1 fails after a write, asks for a write to code 0x12, or never returns. -/
theorem witness_IntStopsAtTheFirstFailingHandler :
    HandlersGive [⟨0, event2 0, .returns ⟨[], false⟩⟩] 2 [⟨0, [2]⟩] RegBank.zero RegBank.zero ∧
    handlerAnswer [⟨1, event2 0, .returns ⟨[(3, 0x41)], true⟩⟩] 1 (event2 0) = .returns ⟨[(3, 0x41)], true⟩ ∧
    WritesGive [(3, 0x41)] RegBank.zero { RegBank.zero with eax := 0x41 } ∧
    handlerAnswer [⟨1, event2 0, .returns ⟨[(3, 0x41), (0x12, 1)], false⟩⟩] 1 (event2 0) =
      .returns ⟨[(3, 0x41)] ++ (0x12, 1) :: [], false⟩ ∧
    resolveCode 0x12 = none ∧
    handlerAnswer [⟨1, event2 0, .neverReturns⟩] 1 (event2 0) = .neverReturns :=
  ⟨⟨⟨[], false⟩, RegBank.zero, by decide, rfl, rfl, rfl⟩, by decide, ⟨.al, rfl, rfl⟩, by decide, by decide, by decide⟩

theorem witness_IntChangesOnlyTheRegistersAndTheOutcome :
    (∃ t, exec (.int (.one (.imm 2))) twoHandlers = .next t) ∧ ∃ t, exec (.int .zero) twoHandlers = .next t :=
  ⟨⟨_, rfl⟩, ⟨_, rfl⟩⟩

theorem witness_InvalidRaisesDecodeAmbiguity :
    0x33 ≤ (diwOpc 0x0000000000000000033).toNat ∧ 0x33 ≤ (diwOpc 0x3FFFFFFFFFFFFFFFFFF).toNat := by decide

/-- A handler that never returns stops the step. -/
def stuckState : State := interrupted [⟨1, [2]⟩] [⟨1, event2 0, .neverReturns⟩] 0

theorem witness_AStepRunsTheDecodedInstruction :
    (CoreMoves base ∧ base.mode = .draining ∧ base.store[base.pc.toNat]? = some 0x32 ∧ decode 0x32 = .nop .zero ∧
      ∃ t, exec (.nop .zero) { base with turns := base.turns.tail, taken := false } = .next t) ∧
    CoreMoves stuckState ∧ stuckState.mode = .draining ∧
      stuckState.store[stuckState.pc.toNat]? = some 0x0000000000000000871 ∧
      decode 0x0000000000000000871 = .int (.one (.imm 2)) ∧
      exec (.int (.one (.imm 2))) { stuckState with turns := stuckState.turns.tail, taken := false } =
        .fault (.handlerNeverReturns 0) :=
  ⟨⟨.inl rfl, rfl, rfl, by decide, _, rfl⟩, .inl rfl, rfl, rfl, by decide, rfl⟩

/-- `pc` equal to the length of the store, and beyond it; the turn of the core written out in the second. -/
theorem witness_ADrainEndsBeyondTheStore :
    (CoreMoves { base with pc := 1 } ∧ base.mode = .draining ∧ ({ base with pc := 1 } : State).store.length ≤ 1) ∧
    CoreMoves { base with pc := 0xFFFFFFFF, turns := [.core] } :=
  ⟨⟨.inl rfl, rfl, by decide⟩, .inr ⟨[], rfl⟩⟩

theorem witness_AnIdleCoreKeepsAllState :
    CoreMoves State.reset ∧ State.reset.mode = .idle ∧ CoreMoves { State.reset with turns := [.core] } :=
  ⟨.inl rfl, rfl, .inr ⟨[], rfl⟩⟩

/-- Idle with room for one word, idle and full, and draining. -/
theorem witness_ExecuteAppendsAndDrainsOrIsRefused :
    (∀ n, (⟨none, some 1⟩ : Params).storeCapacity = some n → State.reset.store.length < n) ∧
    State.reset.mode = .idle ∧ (⟨none, some 1⟩ : Params).storeCapacity = some 1 ∧ 1 ≤ base.store.length ∧
    base.mode = .draining ∧ ({ base with turns := [.call (.execute 0x32)] } : State).turns = .call (.execute 0x32) :: [] :=
  ⟨fun n h => (by cases h; decide), rfl, rfl, by decide, rfl, rfl⟩

theorem witness_FloatingPointOperandsAreRefused :
    RecordOperand.float ∈ (⟨0x0F, [.float]⟩ : InstrRecord).operands ∧ packRecord ⟨0x0F, [.imm 5]⟩ = some 0x000000000000000144F ∧
    ({ base with turns := [.call (.submit ⟨0x0F, [.float]⟩)] } : State).turns = .call (.submit ⟨0x0F, [.float]⟩) :: [] :=
  ⟨.head _, by decide, rfl⟩

theorem witness_RegistrationKeepsOrderAndHandlesDistinct :
    (∀ e ∈ twoHandlers.registry, e.handle ≠ 2) ∧ (∃ e ∈ twoHandlers.registry, e.handle = 1) ∧
    ({ twoHandlers with turns := [.call (.register 2 [5])] } : State).turns = .call (.register 2 [5]) :: [] ∧
    ({ twoHandlers with turns := [.call (.unregister 0)] } : State).turns = .call (.unregister 0) :: [] := by decide

theorem witness_DiagnosticReadsChangeNothing :
    ({ State.reset with turns := [.call .readState] } : State).turns = .call .readState :: [] ∧ State.reset.mode = .idle ∧
    ({ base with turns := [.call .readState] } : State).turns = .call .readState :: [] ∧ base.mode = .draining :=
  ⟨rfl, rfl, rfl, rfl⟩

/-- The host's turn; a step of the core, and a call, at which no such turn stands first. -/
theorem witness_OnlyTheHostsTurnChangesItsHandlers :
    ({ base with turns := [.handlersBecome twoHandlers.handlers] } : State).turns =
      .handlersBecome twoHandlers.handlers :: [] ∧
    (∃ t, step base = .next t ∧ ∀ a rest, base.turns ≠ .handlersBecome a :: rest) ∧
    ∃ t, step { base with turns := [.call .readState] } = .next t :=
  ⟨rfl, ⟨_, rfl, fun _ _ h => by cases h⟩, ⟨_, rfl⟩⟩

/-- The state after `JMP 5` at index 0 (P5): still beyond the end once one more word is appended; `pc = 2` is the least such. -/
theorem witness_AForwardJumpBeyondTheEndDefers :
    let s : State := { State.reset with store := [0x0000000000000001451], pc := 5, last := .halted 5 }
    s.turns = [] ∧ s.mode = .idle ∧ (∀ n, s.params.storeCapacity = some n → s.store.length < n) ∧
      s.store.length < s.pc.toNat ∧ s.store.length < (2 : Word).toNat :=
  ⟨rfl, rfl, fun n h => (by cases h), by decide, by decide⟩

theorem witness_NoInstructionWritesWhatIsNotItsOwn :
    (∃ t, exec (.mov (dstSrc .al (.imm 1))) base = .next t) ∧ isStackInstr (.mov .zero) = false ∧
    isJump (.mov .zero) = false ∧ isJump (.jmp .zero) = true ∧ isJump (.jpo .zero) = true ∧ isJump (.pop .zero) = false ∧
    isJump (.cmp .zero) = false :=
  ⟨⟨_, rfl⟩, rfl, rfl, by decide, by decide, by decide, by decide⟩

theorem witness_TheStoreIsAppendOnly :
    ∃ t, step { State.reset with turns := [.call (.execute 0x32)] } = .next t ∧ t.store ≠ State.reset.store :=
  ⟨_, rfl, by decide⟩

theorem witness_OnlyANeverReturningHandlerStopsTheMachine : step stuckState = .fault (.handlerNeverReturns 0) := rfl

/-- A coherent state in the middle of a drain, one after an error, and one with finite capacities reached exactly. -/
theorem witness_EveryStepKeepsCoherence :
    (Coherent base ∧ ∃ t, step base = .next t) ∧
    Coherent { base with mode := .idle, last := .fault .arithmeticError 0 } ∧
    Coherent { base with params := ⟨some 2, some 1⟩, stack := [1, 2] } := by
  refine ⟨⟨⟨rfl, by decide, fun n h => (by cases h), fun n h => (by cases h), fun _ => (by decide), fun h => (by cases h)⟩, _, rfl⟩,
    ⟨rfl, by decide, fun n h => (by cases h), fun n h => (by cases h), fun h => (by cases h), fun _ => ⟨rfl, by decide⟩⟩,
    ⟨rfl, by decide, fun n h => (by cases h; decide), fun n h => (by cases h; decide), fun _ => (by decide), fun h => (by cases h)⟩⟩

end Sys2Proof.Tests
end

section
/-! PROOFS. The scope family: which moves reach the host's side of the state (the handlers' answers, the capacities, the schedule). -/

namespace Sys2Proof.Machine

/-- The host's side of the state is the same: the answers of its handlers, the capacities and the schedule. -/
structure HostSideKept (s t : State) : Prop where
  handlers : t.handlers = s.handlers
  params : t.params = s.params
  turns : t.turns = s.turns

theorem HostSideKept.refl (s : State) : HostSideKept s s := ⟨rfl, rfl, rfl⟩

theorem HostSideKept.trans {s t u : State} (h₁ : HostSideKept s t) (h₂ : HostSideKept t u) : HostSideKept s u :=
  ⟨h₂.handlers.trans h₁.handlers, h₂.params.trans h₁.params, h₂.turns.trans h₁.turns⟩

theorem clearTaken_keepsHostSide (s : State) : HostSideKept s (clearTaken s) := ⟨rfl, rfl, rfl⟩

theorem endDrain_keepsHostSide (s : State) : HostSideKept s (endDrain s) := ⟨rfl, rfl, rfl⟩

theorem finishInstr_keepsHostSide (s : State) : HostSideKept s (finishInstr s) :=
  ⟨finishInstr_handlers s, finishInstr_params s, finishInstr_turns s⟩

/-- R37: no instruction reaches the host's side, whether it completes or raises an error. -/
theorem exec_keepsHostSide {i : Instr} {s t : State} (h : exec i s = .next t) : HostSideKept s t := by
  cases exec_effect h with
  | raises g k d h => subst h; exact ⟨rfl, rfl, rfl⟩
  | completes g f st p taken _ h => subst h; exact ⟨rfl, rfl, rfl⟩

theorem coreStep_keepsHostSide {s t : State} (h : coreStep s = .next t) : HostSideKept s t := by
  obtain ⟨-, rfl⟩ | ⟨-, -, rfl⟩ | ⟨_, u, -, -, hexec, rfl⟩ := coreStep_cases h
  · exact .refl _
  · exact endDrain_keepsHostSide s
  · exact (clearTaken_keepsHostSide s).trans ((exec_keepsHostSide hexec).trans (finishInstr_keepsHostSide u))

theorem serveCall_keepsHostSide (c : HostCall) (s : State) : HostSideKept s (serveCall c s) := by
  obtain ⟨_, -, -, h⟩ | ⟨_, _, -, h⟩ | ⟨_, h⟩ | ⟨_, h⟩ := serveCall_cases c s
  all_goals rw [h]; exact ⟨rfl, rfl, rfl⟩

/-- The host's own turn (R286). -/
theorem step_handlersBecome {s : State} {answers : List HandlerRule} {rest : List Turn}
    (h : s.turns = .handlersBecome answers :: rest) :
    step s = .next { s with turns := rest, handlers := answers } := by
  simp only [step, machineStep, h]

/-- Where the core moves, its turn is taken off the schedule first; an empty schedule stays empty. -/
theorem step_of_coreMoves {s : State} (h : CoreMoves s) : step s = coreStep { s with turns := s.turns.tail } := by
  obtain h | ⟨rest, h⟩ := h
  · simp only [step, machineStep, h, List.tail_nil]
    rw [← h]
  · simp only [step, machineStep, h, List.tail_cons]

/-- A step other than the host's own turn takes one turn off the schedule and keeps the rest of the host's side. -/
theorem step_handlersBecome_or_keepsHostSide {s t : State} (h : step s = .next t) :
    (∃ answers rest, s.turns = .handlersBecome answers :: rest ∧ t = { s with turns := rest, handlers := answers }) ∨
    HostSideKept { s with turns := s.turns.tail } t := by
  obtain ⟨_, hcore, -⟩ | ⟨c, rest, hturns, rfl⟩ | hbecome := step_cases h
  · exact .inr (coreStep_keepsHostSide (by rw [← step_of_coreMoves hcore, h]))
  · rw [hturns]; exact .inr (serveCall_keepsHostSide c _)
  · exact .inl hbecome

/-- Settles O32: by what a step can do, each kind of move by what it keeps of the host's side. -/
theorem onlyTheHostsTurnChangesItsHandlers : Obligations.OnlyTheHostsTurnChangesItsHandlers := by
  refine ⟨fun _ _ _ hturns => step_handlersBecome hturns, fun s t h => ?_⟩
  obtain ⟨answers, rest, hturns, rfl⟩ | hkept := step_handlersBecome_or_keepsHostSide h
  · exact ⟨fun hother => absurd hturns (hother answers rest), rfl, by rw [hturns]; rfl⟩
  · exact ⟨fun _ => hkept.handlers, hkept.params, hkept.turns⟩

end Sys2Proof.Machine
end

section
/-! PROOFS. The state family: the invariant between two steps, the append-only store, the register views, the flags and the
values at creation. -/

namespace Sys2Proof.Machine

/-! ## Operations of the state -/

/-- A store that is not full has room for one more word. -/
theorem store_room {s : State} (h : storeFull s = false) {n : Nat} (hn : s.params.storeCapacity = some n) :
    s.store.length < n := by
  simpa [storeFull, hn] using h

/-- The end of an instruction writes nothing but `pc` and the latch (R103). -/
theorem finishInstr_pc_latch (s : State) : ∃ p, finishInstr s = { s with pc := p, taken := false } := by
  unfold finishInstr
  split
  · exact ⟨s.pc, rfl⟩
  · split
    · exact ⟨s.pc, rfl⟩
    · exact ⟨s.pc + 1, rfl⟩

/-! ## The invariant between two steps -/

/-- R34, R36: at creation nothing has run, so `pc` is 0 and the store is empty. -/
theorem reset_coherent : Coherent State.reset where
  latch := rfl
  distinct := List.nodup_nil
  stackFits _ h := by cases h
  storeFits _ h := by cases h
  drained h := by cases h
  idle _ := ⟨rfl, rfl⟩

section
variable {s : State} (h : Coherent s)
include h

/-- The invariant reads neither the schedule nor the listed answers nor the reply. -/
theorem Coherent.withHostSide (turns : List Turn) (handlers : List HandlerRule) (reply : Option Reply) :
    Coherent { s with turns := turns, handlers := handlers, reply := reply } :=
  ⟨h.latch, h.distinct, h.stackFits, h.storeFits, h.drained, h.idle⟩

theorem Coherent.clearTaken : Coherent (clearTaken s) :=
  ⟨rfl, h.distinct, h.stackFits, h.storeFits, h.drained, h.idle⟩

/-- R104: a drain that finds no word at `pc` ends with `pc` at or beyond the end of the store. -/
theorem Coherent.endDrain (hpc : s.store.length ≤ s.pc.toNat) : Coherent (endDrain s) where
  latch := h.latch
  distinct := h.distinct
  stackFits := h.stackFits
  storeFits := h.storeFits
  drained hmode := by cases hmode
  idle _ := ⟨rfl, hpc⟩

/-- R284: an error leaves `pc` at the failing instruction, which is in the store. -/
theorem Coherent.raiseError (g : RegBank) (k : ErrorKind) (d : ErrorDetail) (hpc : s.pc.toNat < s.store.length) :
    Coherent (raiseError k d { s with regs := g }) where
  latch := h.latch
  distinct := h.distinct
  stackFits := h.stackFits
  storeFits := h.storeFits
  drained hmode := by cases hmode
  idle _ := ⟨rfl, hpc⟩

/-- R100: an accepted request finds room in the store and starts a drain. -/
theorem Coherent.append (d : Diw) (hroom : storeFull s = false) :
    Coherent { s with store := s.store ++ [d], mode := .draining } where
  latch := h.latch
  distinct := h.distinct
  stackFits := h.stackFits
  storeFits n hn := by simpa using store_room hroom hn
  drained _ := by simp
  idle hmode := by cases hmode

/-- R289: a new entry has a handle no entry has. -/
theorem Coherent.register (handle : Handle) (binds : List Word)
    (hnew : s.registry.any (fun e => e.handle == handle) = false) :
    Coherent { s with registry := s.registry ++ [⟨handle, binds⟩] } where
  latch := h.latch
  distinct := by simpa [List.nodup_append] using ⟨h.distinct, by simpa using hnew⟩
  stackFits := h.stackFits
  storeFits := h.storeFits
  drained := h.drained
  idle := h.idle

/-- R290: removing entries keeps the others distinct. -/
theorem Coherent.unregister (keep : Registration → Bool) :
    Coherent { s with registry := s.registry.filter keep } where
  latch := h.latch
  distinct := h.distinct.sublist (List.filter_sublist.map _)
  stackFits := h.stackFits
  storeFits := h.storeFits
  drained := h.drained
  idle := h.idle

/-- R61, R102: within a drain an instruction that completes may leave any `pc`, and its stack within the capacity. -/
theorem Coherent.complete (hmode : s.mode = .draining) (g : RegBank) (f : FlagBits) (p : Word) {st : List Word}
    (hfits : ∀ n, s.params.stackCapacity = some n → s.stack.length ≤ n → st.length ≤ n) :
    Coherent { s with regs := g, flags := f, stack := st, pc := p, taken := false } where
  latch := rfl
  distinct := h.distinct
  stackFits n hn := hfits n hn (h.stackFits n hn)
  storeFits := h.storeFits
  drained := h.drained
  idle hidle := nomatch hmode.symm.trans hidle

/-- R101, R103: an instruction of the store, run and finished within a drain. -/
theorem Coherent.runInstr (hmode : s.mode = .draining) (hpc : s.pc.toNat < s.store.length) {i : Instr} {t : State}
    (hexec : exec i s = .next t) : Coherent (finishInstr t) := by
  cases exec_effect hexec with
  | raises g k d ht => subst ht; exact (h.raiseError g k d hpc).clearTaken
  | completes g f st p taken hfits ht =>
    obtain ⟨p', hfinish⟩ := finishInstr_pc_latch t
    rw [hfinish, ht]
    exact h.complete hmode g f p' hfits

theorem Coherent.coreStep {t : State} (hstep : coreStep s = .next t) : Coherent t := by
  obtain ⟨-, rfl⟩ | ⟨-, hfetch, rfl⟩ | ⟨_, _, hmode, hfetch, hexec, rfl⟩ := coreStep_cases hstep
  · exact h
  · exact h.endDrain (List.getElem?_eq_none_iff.mp hfetch)
  · exact h.clearTaken.runInstr hmode (List.getElem?_eq_some_iff.mp hfetch).1 hexec

theorem Coherent.serveCall (c : HostCall) : Coherent (serveCall c s) := by
  obtain ⟨d, -, hroom, hserve⟩ | ⟨handle, binds, hnew, hserve⟩ | ⟨handle, hserve⟩ | ⟨r, hserve⟩ :=
    serveCall_cases c s
  all_goals rw [hserve]
  · exact h.append d hroom
  · exact h.register handle binds hnew
  · exact h.unregister _
  · exact h.withHostSide s.turns s.handlers r

end

/-- Settles O58: each kind of move keeps the invariant, whatever the schedule leaves of the turns. -/
theorem everyStepKeepsCoherence : Obligations.EveryStepKeepsCoherence := by
  intro s t h hstep
  obtain ⟨ts, -, hcore⟩ | ⟨c, rest, -, rfl⟩ | ⟨answers, rest, -, rfl⟩ := step_cases hstep
  · exact (h.withHostSide ts s.handlers s.reply).coreStep hcore
  · exact (h.withHostSide rest s.handlers s.reply).serveCall c
  · exact h.withHostSide rest answers s.reply

/-- Settles O59: at creation the core is idle and nothing has run. -/
theorem theCreationStateIsCoherent : Obligations.TheCreationStateIsCoherent := reset_coherent

/-! ## The store (10_state.md section 3) -/

/-- R31: no instruction writes the program store. -/
theorem exec_store {i : Instr} {s t : State} (h : exec i s = .next t) : t.store = s.store := by
  cases exec_effect h with
  | raises _ _ _ h => rw [h, raiseError_store]
  | completes _ _ _ _ _ _ h => rw [h]

theorem coreStep_store {s t : State} (h : coreStep s = .next t) : t.store = s.store := by
  obtain ⟨-, rfl⟩ | ⟨-, -, rfl⟩ | ⟨_, u, -, -, hexec, rfl⟩ := coreStep_cases h
  · rfl
  · exact endDrain_store s
  · rw [finishInstr_store, exec_store hexec, clearTaken_store]

/-- R100: a call keeps the store, or appends one word to it while the core is idle. -/
theorem serveCall_store (c : HostCall) (s : State) :
    (serveCall c s).store = s.store ∨ s.mode = .idle ∧ ∃ d, (serveCall c s).store = s.store ++ [d] := by
  obtain ⟨d, hidle, -, h⟩ | ⟨_, _, -, h⟩ | ⟨_, h⟩ | ⟨_, h⟩ := serveCall_cases c s
  · exact .inr ⟨hidle, d, by rw [h]⟩
  all_goals exact .inl (by rw [h])

/-- Settles O56: only an accepted request changes the store, by one word at its end. -/
theorem theStoreIsAppendOnly : Obligations.TheStoreIsAppendOnly := by
  intro s t hstep
  obtain ⟨ts, -, hcore⟩ | ⟨c, rest, hturns, rfl⟩ | ⟨answers, rest, -, rfl⟩ := step_cases hstep
  · have hkept : t.store = s.store := (coreStep_store hcore :)
    exact ⟨by rw [hkept], absurd hkept⟩
  · obtain hkept | ⟨hidle, d, happend⟩ := serveCall_store c { s with turns := rest }
    · exact ⟨by rw [hkept], absurd hkept⟩
    · exact ⟨⟨[d], happend.symm⟩, fun _ => ⟨hidle, c, rest, hturns⟩⟩
  · exact ⟨⟨[], List.append_nil _⟩, absurd rfl⟩

/-! ## Register views (R21 to R23) -/

theorem takeCode_unresolved (slot : Nat) {code : Word} (h : resolveCode code = none) :
    takeCode slot code = .error (.register slot) := by
  simp [takeCode, h]

/-- A view lies within its 32-bit word. -/
theorem view_fits (v : View) : viewLo v + viewWidth v ≤ 32 := by cases v <;> decide

/-- R22, bit by bit. -/
theorem getReg_bit (id : RegId) (g : RegBank) (k : Nat) :
    (getReg id g).getLsbD k =
      (decide (k < viewWidth (viewOf id)) && (readFamily (familyOf id) g).getLsbD (viewLo (viewOf id) + k)) := by
  rw [getReg, BitVec.getLsbD_and, BitVec.getLsbD_ushiftRight, viewMask_bit, Bool.and_comm]

/-- The mask of a view in place has exactly the view's bits set. -/
theorem viewMask_shifted_bit (v : View) (k : Nat) :
    (viewMask v <<< viewLo v).getLsbD k = decide (viewLo v ≤ k ∧ k < viewLo v + viewWidth v) := by
  have hfits := view_fits v
  rw [BitVec.getLsbD_shiftLeft, viewMask_bit]
  grind

/-- R23, bit by bit, in the family of the id. -/
theorem setReg_bit (id : RegId) (v : Word) (g : RegBank) (k : Nat) :
    (readFamily (familyOf id) (setReg id v g)).getLsbD k =
      if viewLo (viewOf id) ≤ k ∧ k < viewLo (viewOf id) + viewWidth (viewOf id)
      then v.getLsbD (k - viewLo (viewOf id)) else (readFamily (familyOf id) g).getLsbD k := by
  have hfits := view_fits (viewOf id)
  rw [readFamily_setReg_same, BitVec.getLsbD_or, BitVec.getLsbD_and, BitVec.getLsbD_and, BitVec.getLsbD_not,
    viewMask_shifted_bit, BitVec.getLsbD_shiftLeft]
  split
  · next hin => simp [hin, show k < 32 by omega]
  · next hout =>
    by_cases hk : k < 32
    · simp [hout, hk]
    · simp [hout, BitVec.getLsbD_of_ge _ _ (Nat.le_of_not_lt hk)]

/-- Settles O2, by the mask and the shift of the view. -/
theorem readingAViewGivesItsSlice : Obligations.ReadingAViewGivesItsSlice :=
  ⟨getReg_bit, fun slot _ hcode => takeCode_unresolved slot hcode⟩

/-- Settles O3: within the id's family by the masks, in every other family because the write does not reach it. -/
theorem writingAViewChangesOnlyItsSlice : Obligations.WritingAViewChangesOnlyItsSlice := by
  refine ⟨fun id v g f k => ?_, fun slot _ hcode => takeCode_unresolved slot hcode⟩
  by_cases hf : f = familyOf id
  · subst hf
    simpa using setReg_bit id v g k
  · rw [readFamily_setReg_other hf, if_neg (fun hin => hf hin.1)]

/-- Settles O1: each id's row is its own family, lowest bit and width. -/
theorem registerIdsNameTheirBitRanges : Obligations.RegisterIdsNameTheirBitRanges := by
  refine ⟨fun id => ⟨(id, familyOf id, viewLo (viewOf id), viewWidth (viewOf id)), ?_, rfl⟩, by decide⟩
  cases id <;> decide

/-! ## The packed flags (R27) -/

/-- A flag at its position is that one bit and no other. -/
theorem flagAt_bit (b : Bool) {j : Nat} (hj : j < 32) (k : Nat) : (flagAt b j).getLsbD k = (b && decide (j = k)) := by
  cases b
  · simp [flagAt]
  · rw [flagAt, if_pos rfl, BitVec.getLsbD_ofNat, Nat.testBit_two_pow, Bool.true_and]
    grind

/-- Settles O5: the six positions are distinct, so each bit is that of at most one flag. -/
theorem packedFlagsHaveTheSixBits : Obligations.PackedFlagsHaveTheSixBits := by
  intro f k
  simp (disch := decide) only [packFlags, BitVec.getLsbD_or, flagAt_bit]
  grind

/-! ## The flags an instruction writes (R28, R29) -/

/-- The flags that differ between two states are among those of the list. -/
def KeepsFlagsBut (l : List FlagName) (s t : State) : Prop :=
  ∀ n, n ∉ l → flagValue n t.flags = flagValue n s.flags

theorem KeepsFlagsBut.of_flags_eq {l : List FlagName} {s t : State} (h : t.flags = s.flags) : KeepsFlagsBut l s t :=
  fun _ _ => by rw [h]

/-- Whether a flag write enables a flag, and with which value (R39). -/
def FlagWrite.valueOf (n : FlagName) (w : FlagWrite) : Option Bool :=
  match n with
  | .cf => w.cf
  | .pf => w.pf
  | .af => w.af
  | .zf => w.zf
  | .sf => w.sf
  | .of => w.of

/-- R39: each flag by itself. -/
theorem flagValue_commitFlags (n : FlagName) (w : FlagWrite) (f : FlagBits) :
    flagValue n (commitFlags w f) = (w.valueOf n).getD (flagValue n f) := by
  cases n <;> rfl

/-- The flags an operation of the ALU may write. -/
def aluFlagsWritten (op : AluOp) : List FlagName :=
  match op with
  | .add | .sub | .cmp => [.cf, .zf, .sf, .of]
  | .mul => [.cf, .of]
  | .and | .or | .xor | .shl | .sar | .shr => [.cf, .pf, .zf, .sf, .of]
  | .div | .inc | .dec | .not | .pass => []

/-- R113: an operation enables no flag but its own. -/
theorem alu_enables_only (op : AluOp) (a b : Word) (n : FlagName) :
    (alu op a b).fl.valueOf n = none ∨ n ∈ aluFlagsWritten op := by
  cases op
  case div | inc | dec | not | pass => exact .inl (by cases n <;> rfl)
  case shl | sar | shr =>
    simp only [alu, aluShl, aluSar, aluShr, aluFlagsWritten]
    split
    · exact .inl (by cases n <;> rfl)
    · cases n <;> simp [FlagWrite.valueOf, shiftFlags]
  case and | or | xor => cases n <;> simp [FlagWrite.valueOf, aluFlagsWritten, alu, aluAnd, aluOr, aluXor, logicFlags]
  case add | sub | cmp | mul =>
    cases n <;> simp [FlagWrite.valueOf, aluFlagsWritten, alu, aluAdd, aluSub, aluCmp, aluMul]

/-- The commit of an operation's flag write, wherever its result goes. -/
theorem KeepsFlagsBut.of_alu {l : List FlagName} {s t : State} {op : AluOp} {a b : Word}
    (h : t.flags = commitFlags (alu op a b).fl s.flags) (hl : l = aluFlagsWritten op) : KeepsFlagsBut l s t := by
  subst hl
  intro n hn
  have hoff : (alu op a b).fl.valueOf n = none := (alu_enables_only op a b n).resolve_right hn
  rw [h, flagValue_commitFlags, hoff, Option.getD_none]

/-- R190: with a count of 0 a shift writes nothing at all. -/
theorem shiftDstSrc_keepsFlags (op : AluOp) (d : RegId) (src : Src) (s : State) :
    KeepsFlagsBut (aluFlagsWritten op) s (shiftDstSrc op d src s) := by
  unfold shiftDstSrc
  split
  · exact .of_flags_eq rfl
  · exact .of_alu rfl rfl

/-- A failed check writes no flag, so the rule alone decides. -/
theorem withChecked_keepsFlags {α : Type} {c : Except OperandError α} {s t : State} {rule : α → Result}
    {l : List FlagName} (hrule : ∀ a, rule a = .next t → KeepsFlagsBut l s t) (h : withChecked c s rule = .next t) :
    KeepsFlagsBut l s t := by
  obtain ⟨a, -, h⟩ | ⟨e, -, h⟩ := withChecked_cases h
  · exact hrule a h
  · cases h; exact .of_flags_eq (raiseOperandError_flags e s)

theorem jumpIf_keepsFlags {c : Bool} {o : Operands} {s t : State} {l : List FlagName} (h : jumpIf c o s = .next t) :
    KeepsFlagsBut l s t := by
  refine withChecked_keepsFlags (fun src h => ?_) h
  cases h
  cases c <;> exact .of_flags_eq rfl

/-- R28, R29: no instruction writes a flag it does not name. -/
theorem exec_keepsFlags {i : Instr} {s t : State} (h : exec i s = .next t) : KeepsFlagsBut (flagsWritten i) s t := by
  cases i
  case mov | add | sub | and | or | xor | cmp | inc | dec | not | mul =>
    exact withChecked_keepsFlags (fun _ h => by cases h; exact .of_alu rfl rfl) h
  case sal | shl =>
    exact withChecked_keepsFlags (fun p h => by cases h; exact shiftDstSrc_keepsFlags .shl p.1 p.2 s) h
  case sar => exact withChecked_keepsFlags (fun p h => by cases h; exact shiftDstSrc_keepsFlags .sar p.1 p.2 s) h
  case shr => exact withChecked_keepsFlags (fun p h => by cases h; exact shiftDstSrc_keepsFlags .shr p.1 p.2 s) h
  case div =>
    refine withChecked_keepsFlags (fun src h => ?_) h
    dsimp only at h
    split at h
    · cases h; exact .of_flags_eq rfl
    · cases h; exact .of_alu rfl rfl
  case push => exact withChecked_keepsFlags (fun _ h => by cases h; exact .of_flags_eq (pushWord_flags _ s)) h
  case pop =>
    refine withChecked_keepsFlags (fun d h => ?_) h
    obtain ⟨-, h⟩ | ⟨_, _, -, h⟩ := popWord_cases h
    all_goals cases h; exact .of_flags_eq rfl
  case jmp => exact withChecked_keepsFlags (fun _ h => by cases h; exact .of_flags_eq rfl) h
  case int =>
    refine withChecked_keepsFlags (fun id h => ?_) h
    obtain ⟨g, h | ⟨_, _, h⟩⟩ := notifyHandlers_next h
    all_goals subst h; exact .of_flags_eq rfl
  case nop => exact withChecked_keepsFlags (fun _ h => by cases h; exact .of_flags_eq rfl) h
  case invalid => cases h; exact .of_flags_eq rfl
  all_goals exact jumpIf_keepsFlags h

/-- Settles O38, by the flags each instruction's own writes can reach. -/
theorem unwrittenFlagsKeepTheirValue : Obligations.UnwrittenFlagsKeepTheirValue :=
  fun _ _ _ n hexec hn => exec_keepsFlags hexec n hn

/-- No line of the table of R28 names AF. -/
theorem af_not_mem_flagsWritten (i : Instr) : FlagName.af ∉ flagsWritten i := by
  cases i <;> simp [flagsWritten]

theorem exec_af {i : Instr} {s t : State} (h : exec i s = .next t) : t.flags.af = s.flags.af :=
  exec_keepsFlags h .af (af_not_mem_flagsWritten i)

theorem coreStep_af {s t : State} (h : coreStep s = .next t) : t.flags.af = s.flags.af := by
  obtain ⟨-, rfl⟩ | ⟨-, -, rfl⟩ | ⟨_, u, -, -, hexec, rfl⟩ := coreStep_cases h
  · rfl
  · rw [endDrain_flags]
  · rw [finishInstr_flags, exec_af hexec, clearTaken_flags]

/-- R317: no call of the host reaches the flags. -/
theorem serveCall_flags (c : HostCall) (s : State) : (serveCall c s).flags = s.flags := by
  obtain ⟨_, -, -, h⟩ | ⟨_, _, -, h⟩ | ⟨_, h⟩ | ⟨_, h⟩ := serveCall_cases c s
  all_goals rw [h]

/-- Settles O39: neither an instruction nor a move of the host writes AF. -/
theorem noStepChangesTheAuxiliaryFlag : Obligations.NoStepChangesTheAuxiliaryFlag := by
  intro s t hstep
  obtain ⟨ts, -, hcore⟩ | ⟨c, rest, -, rfl⟩ | ⟨_, _, -, rfl⟩ := step_cases hstep
  · exact (coreStep_af hcore :)
  · rw [serveCall_flags]
  · rfl

/-! ## The values at creation (R36) -/

theorem readFamily_zero (f : Family) : readFamily f RegBank.zero = 0 := by cases f <;> rfl

/-- Every view of a zero word is zero. -/
theorem getReg_zero (id : RegId) : getReg id RegBank.zero = 0 := by
  simp [getReg, readFamily_zero]

theorem flagValue_clear (n : FlagName) : flagValue n FlagBits.clear = false := by cases n <;> rfl

/-- Settles O60: every word and flag is clear, hence every view and the packed word. -/
theorem creationValues : Obligations.CreationValues :=
  ⟨readFamily_zero, getReg_zero, flagValue_clear, rfl, rfl, rfl, rfl, rfl, rfl, rfl, rfl, rfl⟩

end Sys2Proof.Machine
end

section
/-! PROOFS. The encoding family: the fields of the word, the encoder against the decoder, the boundary with the external
decoder, and the errors before execution. -/

namespace Sys2Proof.Machine

/-! ## Register codes (30_encoding.md section 2) -/

/-- R75: the resolved codes are those of the ids. -/
theorem resolveCode_eq_some_iff (code : Word) (id : RegId) : resolveCode code = some id ↔ code = regCode id := by
  refine ⟨fun h => ?_, fun h => by rw [h, resolveCode_regCode]⟩
  unfold resolveCode at h
  split at h
  all_goals cases h
  all_goals exact BitVec.eq_of_toNat_eq ‹_›

theorem regCode_lt (id : RegId) : (regCode id).toNat < 0x20 := by cases id <;> decide

/-- R75: no id has a code from 0x20 up. -/
theorem resolveCode_eq_none {code : Word} (h : 0x20 ≤ code.toNat) : resolveCode code = none := by
  refine Option.eq_none_iff_forall_ne_some.mpr fun id hid => ?_
  rw [(resolveCode_eq_some_iff code id).mp hid] at h
  exact absurd (regCode_lt id) (Nat.not_lt.mpr h)

/-- Settles O4: the table is read backwards row by row, and its rows end below 0x20. -/
theorem registerCodesResolveByTheTable : Obligations.RegisterCodesResolveByTheTable :=
  ⟨resolveCode_eq_some_iff, fun id => by cases id <;> decide, fun _ => resolveCode_eq_none⟩

/-! ## Fields of the word (R71) -/

/-- One bit of a word as a field of width 1. -/
theorem ofBool_getLsbD (d : Diw) (k : Nat) : BitVec.ofBool (d.getLsbD k) = d.extractLsb' k 1 := by
  refine BitVec.eq_of_getLsbD_eq fun i hi => ?_
  obtain rfl : i = 0 := by omega
  simp

/-- R71: the six fields are the whole word, each beside the next. -/
theorem packFields_of_fields (d : Diw) :
    packFields (diwOpc d) (diwNops d) (diwT0 d) (diwT1 d) (diwV0 d) (diwV1 d) = d := by
  simp only [packFields, diwOpc, diwNops, diwT0, diwT1, diwV0, diwV1, ofBool_getLsbD,
    BitVec.extractLsb'_append_extractLsb'_eq_extractLsb']
  exact BitVec.extractLsb'_eq_self

/-- Settles O6: each field is a slice of the word, and the slices side by side are the word. -/
theorem wordFieldsLieWhereTheLayoutSays : Obligations.WordFieldsLieWhereTheLayoutSays :=
  ⟨fun d k => ⟨by simp [diwOpc], BitVec.getLsbD_extractLsb' 6 2 d k, rfl, rfl,
    BitVec.getLsbD_extractLsb' 10 32 d k, BitVec.getLsbD_extractLsb' 42 32 d k⟩, packFields_of_fields⟩

/-- A mask given by its fields masks each field by its own. -/
theorem and_packFields (d : Diw) (opc : Opc) (nops : BitVec 2) (t0 t1 : Bool) (v0 v1 : Word) :
    d &&& packFields opc nops t0 t1 v0 v1 =
      packFields (diwOpc d &&& opc) (diwNops d &&& nops) (diwT0 d && t0) (diwT1 d && t1) (diwV0 d &&& v0)
        (diwV1 d &&& v1) := by
  obtain ⟨hopc, hnops, ht0, ht1, hv0, hv1⟩ := packFields_fields opc nops t0 t1 v0 v1
  rw [← packFields_of_fields (d &&& packFields opc nops t0 t1 v0 v1)]
  simp only [diwOpc, diwNops, diwT0, diwT1, diwV0, diwV1, BitVec.extractLsb'_and, BitVec.getLsbD_and]
    at hopc hnops ht0 ht1 hv0 hv1 ⊢
  rw [hopc, hnops, ht0, ht1, hv0, hv1]

/-! ## The encoder against the decoder -/

/-- Encoding fields and decoding the word reads the opcode number on the same operands. -/
theorem decode_encodeFields (opc : Opc) (o : Operands) : decode (encodeFields opc o) = decodeOpcode opc o := by
  obtain ⟨hopc, ho⟩ := encodeFields_fields opc o
  rw [decode, hopc, ho]

/-- R76: the number of an instruction names it again; only INVALID's number is not its constructor's own. -/
theorem decodeOpcode_opcodeNumber (i : Instr) (h : i.Encodable) : decodeOpcode (opcodeNumber i) (operandsOf i) = i := by
  cases i with
  | invalid opc => exact Laws.OpcodeRoundTrip.invalid opc h
  | _ => rfl

theorem decode_encode {i : Instr} (h : i.Encodable) : decode (encode i) = i := by
  rw [encode, decode_encodeFields, decodeOpcode_opcodeNumber i h]

/-- The checks of R105 restrict the operands only; for INVALID both say that the number is unassigned. -/
theorem encodable_of_wellFormed {i : Instr} (h : i.WellFormed) : i.Encodable := by
  cases i with
  | invalid opc => exact h
  | _ => trivial

/-- Settles O7: the word's fields give back the number and the operands, and the number names the instruction. -/
theorem decodingAnEncodedInstructionGivesItBack : Obligations.DecodingAnEncodedInstructionGivesItBack :=
  ⟨fun _ h => decode_encode (encodable_of_wellFormed h), fun _ h => decode_encode h⟩

/-- R77, R267: of a word with an unassigned number the encoder keeps the number alone. -/
theorem encode_decode_unassigned {d : Diw} (h : 0x33 ≤ (diwOpc d).toNat) :
    encode (decode d) = packFields (diwOpc d) 0 false false 0 0 := by
  rw [decode, decodeOpcode_unassigned _ _ h]
  rfl

/-- R76: of a word with an assigned number the encoder keeps the number and the operands. -/
theorem encode_decode_assigned {d : Diw} (h : (diwOpc d).toNat < 0x33) :
    encode (decode d) = encodeFields (diwOpc d) (decodeOperands d) := by
  obtain ⟨hopc, ho⟩ := decodeOpcode_assigned (diwOpc d) (decodeOperands d) h
  rw [encode, decode, hopc, ho]

/-- R72, R80: the count and the slots below it are kept, the others are cleared. -/
theorem encodeFields_decodeOperands (d : Diw) :
    encodeFields (diwOpc d) (decodeOperands d) =
      if diwNops d = 0 then packFields (diwOpc d) (diwNops d) false false 0 0
      else if diwNops d = 1 then packFields (diwOpc d) (diwNops d) (diwT0 d) false (diwV0 d) 0
      else packFields (diwOpc d) (diwNops d) (diwT0 d) (diwT1 d) (diwV0 d) (diwV1 d) := by
  have hcount : ∀ n : BitVec 2, n = 0 ∨ n = 1 ∨ n = 2 ∨ n = 3 := by decide
  obtain h | h | h | h := hcount (diwNops d)
  all_goals simp [decodeOperands, encodeFields, bits_of_decodeOperand, h]

/-- Settles O8: the mask's fields are all ones where the encoder keeps a field and zero where it clears one. -/
theorem encodingADecodedWordClearsTheIgnoredBits : Obligations.EncodingADecodedWordClearsTheIgnoredBits := by
  intro d
  have honlyOpc : (0x3F : Diw) = packFields (.allOnes 6) 0 false false 0 0 := rfl
  have hnoSlot : (0xFF : Diw) = packFields (.allOnes 6) (.allOnes 2) false false 0 0 := rfl
  have honeSlot : (0x3FFFFFFFDFF : Diw) = packFields (.allOnes 6) (.allOnes 2) true false (.allOnes 32) 0 := rfl
  unfold significantBits
  split
  · next h =>
    rw [encode_decode_unassigned h, honlyOpc, and_packFields]
    simp [-BitVec.reduceAllOnes]
  · next h =>
    rw [encode_decode_assigned (Nat.not_le.mp h), encodeFields_decodeOperands]
    split
    · rw [hnoSlot, and_packFields]
      simp [-BitVec.reduceAllOnes]
    · split
      · rw [honeSlot, and_packFields]
        simp [-BitVec.reduceAllOnes]
      · rw [BitVec.and_allOnes, packFields_of_fields]

/-- Settles O9: each word's fields are those of the instruction it stands for. -/
theorem sampleWordsDecode : Obligations.SampleWordsDecode :=
  ⟨rfl, rfl, rfl, rfl, rfl, rfl, rfl, rfl, rfl, rfl, rfl, rfl⟩

/-! ## The boundary with the external decoder (R70, R72, R73) -/

theorem mapM_packOperand_eq_none_iff (l : List RecordOperand) :
    l.mapM packOperand = none ↔ RecordOperand.float ∈ l := by
  induction l with
  | nil => simp
  | cons a l ih =>
    rw [List.mem_cons, ← ih, List.mapM_cons]
    cases a with
    | float => simp [packOperand]
    | imm _ | reg _ => cases l.mapM packOperand <;> simp [packOperand]

theorem map_packOperand_of_mapM {l : List RecordOperand} {m : List Operand} (h : l.mapM packOperand = some m) :
    l.map packOperand = m.map some := by
  induction l generalizing m with
  | nil => simp_all
  | cons a l ih =>
    simp only [List.mapM_cons, Option.bind_eq_bind, Option.bind_eq_some_iff, Option.pure_def, Option.some.injEq] at h
    obtain ⟨b, hb, bs, hbs, rfl⟩ := h
    simp [hb, ih hbs]

/-- R73: only a floating-point literal, in any place, has no slot. -/
theorem packOperands_eq_none_iff (l : List RecordOperand) : packOperands l = none ↔ RecordOperand.float ∈ l := by
  rw [← mapM_packOperand_eq_none_iff]
  unfold packOperands
  split <;> simp [*]

/-- R72: the count is saturated at 3 and the slots hold the first two operands. -/
theorem packOperands_eq_some {l : List RecordOperand} {o : Operands} (h : packOperands l = some o) :
    operandCount o = min l.length 3 ∧ (presentOperands o).map some = (l.take 2).map packOperand := by
  cases hm : l.mapM packOperand with
  | none => simp [packOperands, hm] at h
  | some m =>
    have hmap : l.map packOperand = m.map some := map_packOperand_of_mapM hm
    have hlen : l.length = m.length := by simpa using congrArg List.length hmap
    rw [List.map_take, hmap, hlen]
    rcases m with _ | ⟨a, _ | ⟨b, _ | ⟨c, m⟩⟩⟩
    all_goals
      simp only [packOperands, hm, Option.some.injEq] at h
      subst h
      simp [operandCount, presentOperands]

/-- R72: the count field holds NOPS. -/
theorem diwNops_encodeFields (opc : Opc) (o : Operands) : (diwNops (encodeFields opc o)).toNat = operandCount o := by
  cases o <;> simp [encodeFields, packFields_fields, operandCount]

theorem packRecord_eq_none_iff (r : InstrRecord) : packRecord r = none ↔ RecordOperand.float ∈ r.operands := by
  rw [packRecord, Option.map_eq_none_iff, packOperands_eq_none_iff]

/-- Settles O10: the word is that of the packed operands, whose fields are read back. -/
theorem packedRecordsKeepTheirOperands : Obligations.PackedRecordsKeepTheirOperands := by
  refine fun r => ⟨packRecord_eq_none_iff r, fun d hd => ?_⟩
  obtain ⟨o, ho, rfl⟩ := Option.map_eq_some_iff.mp hd
  obtain ⟨hcount, hslots⟩ := packOperands_eq_some ho
  obtain ⟨hopc, hoperands⟩ := encodeFields_fields r.opc o
  refine ⟨hopc, by rw [diwNops_encodeFields, hcount], fun k a hk ha => ?_⟩
  have hslot : ((presentOperands o).map some)[k]? = some (packOperand a) := by
    rw [hslots, List.getElem?_map, List.getElem?_take_of_lt hk, ha]
    rfl
  rw [hoperands]
  obtain ⟨b, hb, hba⟩ := Option.map_eq_some_iff.mp (List.getElem?_map ▸ hslot)
  rw [hb, hba]

theorem step_call {s : State} {c : HostCall} {rest : List Turn} (h : s.turns = .call c :: rest) :
    step s = .next (serveCall c { s with turns := rest }) := by
  simp only [step, machineStep, h]

theorem submitRecord_of_packs {r : InstrRecord} {d : Diw} (h : packRecord r = some d) (s : State) :
    submitRecord r s = appendAndDrain d s := by
  simp only [submitRecord, h]

theorem submitRecord_of_float {r : InstrRecord} (h : RecordOperand.float ∈ r.operands) (s : State) :
    submitRecord r s = refuseCall .floatOperand s := by
  simp only [submitRecord, (packRecord_eq_none_iff r).mpr h]

/-- Settles O51: a record without a word is refused by name, and any other is served as its word is. -/
theorem floatingPointOperandsAreRefused : Obligations.FloatingPointOperandsAreRefused := by
  intro s r rest hturns
  refine ⟨fun hfloat => ?_, fun d hd => ?_⟩
  · rw [step_call hturns, serveCall, submitRecord_of_float hfloat]
    rfl
  · rw [step_call hturns, step_call rfl, serveCall, serveCall, submitRecord_of_packs hd]

/-! ## The errors before execution (R105, R267, R284) -/

/-- Settles O46: the number alone decides, and the error is raised before any check. -/
theorem invalidRaisesDecodeAmbiguity : Obligations.InvalidRaisesDecodeAmbiguity :=
  ⟨fun d h => decodeOpcode_unassigned (diwOpc d) (decodeOperands d) h, fun _ _ => rfl⟩

theorem withChecked_of_error {α : Type} {c : Except OperandError α} {e : OperandError} (h : c = .error e) (s : State)
    (rule : α → Result) : withChecked c s rule = .next (raiseOperandError e s) := by
  rw [h, withChecked_error]

/-- R105: whatever the instruction, its rule runs on checked operands only. -/
theorem exec_of_failed_check {i : Instr} {sig : List SlotKind} {e : OperandError} (hsig : signatureOf i = some sig)
    (hcheck : checkOperands sig (operandsOf i) = some e) (s : State) : exec i s = .next (raiseOperandError e s) := by
  cases i
  all_goals cases hsig
  case mov o | add o | sub o | and o | or o | xor o | sal o | sar o | shl o | shr o | cmp o =>
    exact withChecked_of_error (takeDstSrc_of_check o e hcheck) s _
  case inc o | dec o | not o | pop o => exact withChecked_of_error (takeDst_of_check o e hcheck) s _
  case int o => exact withChecked_of_error (takeImm_of_check o e hcheck) s _
  case nop o => exact withChecked_of_error (takeNone_of_check o e hcheck) s _
  all_goals exact withChecked_of_error (takeSrc_of_check _ e hcheck) s _

/-- Settles O12: each of the three errors is taken as R284 says. -/
theorem aFailedCheckIsRaisedAndNothingElseHappens : Obligations.AFailedCheckIsRaisedAndNothingElseHappens :=
  fun _ _ s hsig => ⟨fun _ hcheck => exec_of_failed_check hsig hcheck s,
    fun _ hcheck => exec_of_failed_check hsig hcheck s, fun _ hcheck => exec_of_failed_check hsig hcheck s⟩

end Sys2Proof.Machine
end

section
/-! PROOFS. The execution-cycle family: the checks before execution, the flag helpers, what an instruction leaves alone,
the drain loop and Append-and-Drain. -/

namespace Sys2Proof.Machine

/-! ## The first error of the checks (R105) -/

/-- A search by index, with what it looks for said as a predicate on places. -/
theorem findIdx?_eq_some_iff_first {α : Type} {p : α → Bool} {l : List α} {P : Nat → Prop}
    (hP : ∀ j, P j ↔ ∃ x, l[j]? = some x ∧ p x = true) (k : Nat) :
    l.findIdx? p = some k ↔ P k ∧ ∀ j, j < k → ¬ P j := by
  rw [List.findIdx?_eq_some_iff_getElem, hP]
  constructor
  · rintro ⟨hk, hpk, hbefore⟩
    refine ⟨⟨l[k], List.getElem?_eq_getElem hk, hpk⟩, fun j hj hPj => ?_⟩
    obtain ⟨x, hx, hpx⟩ := (hP j).mp hPj
    obtain ⟨_, rfl⟩ := List.getElem?_eq_some_iff.mp hx
    exact hbefore j hj hpx
  · rintro ⟨⟨x, hx, hpx⟩, hbefore⟩
    obtain ⟨hk, rfl⟩ := List.getElem?_eq_some_iff.mp hx
    exact ⟨hk, hpx, fun j hj hpj => hbefore j hj ((hP j).mpr ⟨_, List.getElem?_eq_getElem (hj.trans hk), hpj⟩)⟩

theorem findIdx?_eq_none_iff_never {α : Type} {p : α → Bool} {l : List α} {P : Nat → Prop}
    (hP : ∀ j, P j ↔ ∃ x, l[j]? = some x ∧ p x = true) : l.findIdx? p = none ↔ ∀ j, ¬ P j := by
  simp only [List.findIdx?_eq_none_iff, hP, List.mem_iff_getElem?]
  grind

/-- The signature forbids the kind of the operand beside its slot (check 3 of R282). -/
def kindForbidden (slot : SlotKind × Operand) : Bool := !kindAllowed slot.1 slot.2

/-- The search for a bad kind goes through the slots that are both in the signature and present. -/
theorem firstBadKind_eq_findIdx? (k : Nat) (sig : List SlotKind) (l : List Operand) :
    firstBadKind k sig l = ((sig.zip l).findIdx? kindForbidden).map (k + ·) := by
  induction sig generalizing k l with
  | nil => simp [firstBadKind]
  | cons t sig ih =>
    cases l with
    | nil => simp [firstBadKind]
    | cons a l =>
      cases h : kindAllowed t a <;>
        simp [firstBadKind, kindForbidden, List.findIdx?_cons, h, ih, Function.comp_def, Nat.add_right_comm,
          Nat.add_assoc]

theorem firstUnresolved_eq_findIdx? (k : Nat) (l : List Operand) :
    firstUnresolved k l = (l.findIdx? (fun a => !codeResolved a)).map (k + ·) := by
  induction l generalizing k with
  | nil => simp [firstUnresolved]
  | cons a l ih =>
    cases h : codeResolved a <;>
      simp [firstUnresolved, List.findIdx?_cons, h, ih, Function.comp_def, Nat.add_right_comm,
          Nat.add_assoc]

theorem badKindAt_iff (sig : List SlotKind) (l : List Operand) (j : Nat) :
    BadKindAt sig l j ↔ ∃ x, (sig.zip l)[j]? = some x ∧ kindForbidden x = true := by
  simp [BadKindAt, kindForbidden, List.getElem?_zip_eq_some, and_assoc]

/-- Only a register can have an unresolved code. -/
theorem codeResolved_eq_false_iff (a : Operand) :
    codeResolved a = false ↔ ∃ code, a = .reg code ∧ resolveCode code = none := by
  cases a <;> simp [codeResolved]

theorem badCodeAt_iff (l : List Operand) (j : Nat) :
    BadCodeAt l j ↔ ∃ a, l[j]? = some a ∧ (!codeResolved a) = true := by
  simp only [BadCodeAt, Bool.not_eq_true', codeResolved_eq_false_iff]
  grind

theorem firstBadKind_eq_some_iff (sig : List SlotKind) (l : List Operand) (k : Nat) :
    firstBadKind 0 sig l = some k ↔ BadKindAt sig l k ∧ ∀ j, j < k → ¬ BadKindAt sig l j := by
  simpa [firstBadKind_eq_findIdx?] using findIdx?_eq_some_iff_first (badKindAt_iff sig l) k

theorem firstBadKind_eq_none_iff (sig : List SlotKind) (l : List Operand) :
    firstBadKind 0 sig l = none ↔ ∀ j, ¬ BadKindAt sig l j := by
  simpa [firstBadKind_eq_findIdx?] using findIdx?_eq_none_iff_never (badKindAt_iff sig l)

theorem firstUnresolved_eq_some_iff (l : List Operand) (k : Nat) :
    firstUnresolved 0 l = some k ↔ BadCodeAt l k ∧ ∀ j, j < k → ¬ BadCodeAt l j := by
  simpa [firstUnresolved_eq_findIdx?] using findIdx?_eq_some_iff_first (badCodeAt_iff l) k

/-- Settles O11: each check reports its first slot, and is reached only when the checks before it find nothing. -/
theorem checksReportTheFirstError : Obligations.ChecksReportTheFirstError := by
  intro sig o
  simp only [← firstBadKind_eq_some_iff, ← firstBadKind_eq_none_iff, ← firstUnresolved_eq_some_iff]
  by_cases hcount : operandCount o = sig.length
  · cases hkind : firstBadKind 0 sig (presentOperands o) <;> simp [checkOperands, hcount, hkind]
  · simp [checkOperands, hcount, eq_comm]

/-! ## The flag helpers (R110, R111) -/

theorem getLsbD_31 (a : Word) : a.getLsbD 31 = a.msb := (BitVec.msb_eq_getLsbD_last a).symm

/-- R111: the sign rule of ADD_OF finds exactly the sums that leave the 32-bit range. -/
theorem addOf_eq_saddOverflow (a b : Word) : addOf a b = a.saddOverflow b := by
  rw [BitVec.saddOverflow_eq, addOf, getLsbD_31, getLsbD_31, getLsbD_31]
  rfl

/-- R111: the sign rule of SUB_OF finds exactly the differences that leave the 32-bit range. -/
theorem subOf_eq_ssubOverflow (a b : Word) : subOf a b = a.ssubOverflow b := by
  rw [BitVec.ssubOverflow_eq, subOf, getLsbD_31, getLsbD_31, getLsbD_31]
  cases a.msb <;> cases b.msb <;> simp

/-- Settles O36: the formulas are the definitions', and the library's sign rules give the range. -/
theorem addAndSubtractFlagsDetectOverflow : Obligations.AddAndSubtractFlagsDetectOverflow := by
  refine fun a b => ⟨rfl, ?_, ?_, ?_, ?_⟩
  · rw [Bool.eq_iff_iff]
    simp [addOf]
  · rw [Bool.eq_iff_iff]
    simp [subOf]
  · rw [addOf_eq_saddOverflow, BitVec.saddOverflow, Bool.or_comm, Bool.decide_or]
  · rw [subOf_eq_ssubOverflow, BitVec.ssubOverflow, Bool.or_comm, Bool.decide_or]

/-- The parity of a count is the complement of the exclusive or of what is counted. -/
theorem countP_even_eq_not_xor {α : Type} (p : α → Bool) (l : List α) :
    (l.countP p % 2 == 0) = !(l.map p).foldr (· ^^ ·) false := by
  induction l with
  | nil => rfl
  | cons a l ih =>
    rw [List.map_cons, List.foldr_cons, List.countP_cons, ← Bool.not_not (List.foldr _ _ _), ← ih]
    cases p a <;> grind

/-- R110: only the eight bits of the low byte are counted. -/
theorem pfOf_eq_not_xor (r : Word) :
    pfOf r = !(r.getLsbD 0 ^^ r.getLsbD 1 ^^ r.getLsbD 2 ^^ r.getLsbD 3 ^^
      r.getLsbD 4 ^^ r.getLsbD 5 ^^ r.getLsbD 6 ^^ r.getLsbD 7) := by
  rw [pfOf, popcountLow8, countP_even_eq_not_xor]
  simp [List.range_succ]

/-- Settles O37, each flag by what it reads of the result. -/
theorem resultFlagsReadTheResult : Obligations.ResultFlagsReadTheResult := by
  refine fun r => ⟨?_, ?_, pfOf_eq_not_xor r⟩
  · simp [zfOf, BitVec.toNat_eq, beq_eq_decide]
  · rw [sfOf, getLsbD_31, BitVec.msb_eq_decide]

/-! ## What an instruction leaves alone (R31, R32, R102, R306) -/

/-- R306: no instruction writes the registry. -/
theorem exec_registry {i : Instr} {s t : State} (h : exec i s = .next t) : t.registry = s.registry := by
  cases exec_effect h with
  | raises _ _ _ h => rw [h, raiseError_registry]
  | completes _ _ _ _ _ _ h => rw [h]

/-- The operand stack is reached only by an instruction of the stack, and `pc` and the latch only by a jump. -/
structure StackAndPcKeptBut (stackInstr jump : Bool) (s t : State) : Prop where
  stack : stackInstr = false → t.stack = s.stack
  pc : jump = false → t.pc = s.pc
  taken : jump = false → t.taken = s.taken

section
variable {α : Type} {c : Except OperandError α} {rule : α → Result} {s t : State} {stackInstr jump : Bool}

theorem StackAndPcKeptBut.of_eq (hstack : t.stack = s.stack) (hpc : t.pc = s.pc) (htaken : t.taken = s.taken) :
    StackAndPcKeptBut stackInstr jump s t :=
  ⟨fun _ => hstack, fun _ => hpc, fun _ => htaken⟩

/-- R102: a transfer is a jump's own. -/
theorem transferTo_keepsStack (target : Word) (s : State) : StackAndPcKeptBut stackInstr true s (transferTo target s) :=
  ⟨fun _ => transferTo_stack target s, nofun, nofun⟩

theorem pushWord_keepsPc (v : Word) (s : State) : StackAndPcKeptBut true jump s (pushWord v s) :=
  ⟨nofun, fun _ => pushWord_pc v s, fun _ => pushWord_taken v s⟩

/-- A failed check reaches neither, so the rule alone decides. -/
theorem withChecked_keepsStackAndPc (hrule : ∀ a, rule a = .next t → StackAndPcKeptBut stackInstr jump s t)
    (h : withChecked c s rule = .next t) : StackAndPcKeptBut stackInstr jump s t := by
  obtain ⟨a, -, h⟩ | ⟨e, -, h⟩ := withChecked_cases h
  · exact hrule a h
  · cases h
    exact .of_eq (raiseOperandError_stack e s) (raiseOperandError_pc e s) (raiseOperandError_taken e s)

theorem jumpIf_keepsStack {cond : Bool} {o : Operands} (h : jumpIf cond o s = .next t) :
    StackAndPcKeptBut stackInstr true s t := by
  refine withChecked_keepsStackAndPc (fun src h => ?_) h
  cases h
  cases cond
  · exact .of_eq rfl rfl rfl
  · exact transferTo_keepsStack _ s

theorem shiftDstSrc_keepsStackAndPc (op : AluOp) (d : RegId) (src : Src) (s : State) :
    StackAndPcKeptBut stackInstr jump s (shiftDstSrc op d src s) := by
  unfold shiftDstSrc
  split <;> exact .of_eq rfl rfl rfl

end

/-- R32, R102: whatever the instruction, the stack is PUSH's and POP's alone, and `pc` and the latch the jumps'. -/
theorem exec_keepsStackAndPc {i : Instr} {s t : State} (h : exec i s = .next t) :
    StackAndPcKeptBut (isStackInstr i) (isJump i) s t := by
  cases i
  case mov | add | sub | and | or | xor | cmp | inc | dec | not | mul | nop =>
    exact withChecked_keepsStackAndPc (fun _ h => by cases h; exact .of_eq rfl rfl rfl) h
  case sal | shl | sar | shr =>
    exact withChecked_keepsStackAndPc (fun p h => by cases h; exact shiftDstSrc_keepsStackAndPc _ p.1 p.2 s) h
  case div =>
    refine withChecked_keepsStackAndPc (fun src h => ?_) h
    dsimp only at h
    split at h
    all_goals cases h; exact .of_eq rfl rfl rfl
  case push => exact withChecked_keepsStackAndPc (fun _ h => by cases h; exact pushWord_keepsPc _ s) h
  case pop =>
    refine withChecked_keepsStackAndPc (fun d h => ?_) h
    obtain ⟨-, h⟩ | ⟨_, _, -, h⟩ := popWord_cases h
    all_goals cases h; exact ⟨nofun, fun _ => rfl, fun _ => rfl⟩
  case int =>
    refine withChecked_keepsStackAndPc (fun id h => ?_) h
    obtain ⟨g, h | ⟨_, _, h⟩⟩ := notifyHandlers_next h
    all_goals subst h; exact .of_eq rfl rfl rfl
  case invalid => cases h; exact .of_eq rfl rfl rfl
  case jmp => exact withChecked_keepsStackAndPc (fun src h => by cases h; exact transferTo_keepsStack _ s) h
  all_goals exact jumpIf_keepsStack h

/-- Settles O55, from what every instruction keeps and from the two families with writes of their own. -/
theorem noInstructionWritesWhatIsNotItsOwn : Obligations.NoInstructionWritesWhatIsNotItsOwn := by
  intro i s t h
  obtain ⟨hhandlers, hparams, hturns⟩ := exec_keepsHostSide h
  obtain ⟨hstack, hpc, htaken⟩ := exec_keepsStackAndPc h
  exact ⟨exec_store h, exec_registry h, hparams, hhandlers, hturns, hstack,
    fun hjump => ⟨hpc hjump, htaken hjump⟩⟩

/-! ## The drain loop (R101 to R104) -/

theorem runWord_of_next {d : Diw} {s t : State} (h : exec (decode d) (clearTaken s) = .next t) :
    runWord d s = .next (finishInstr t) := by
  simp only [runWord, h]

theorem runWord_of_fault {d : Diw} {s : State} {f : Fault} (h : exec (decode d) (clearTaken s) = .fault f) :
    runWord d s = .fault f := by
  simp only [runWord, h]

/-- R103, R114: the end of an instruction, as the counter's next value. -/
theorem finishInstr_eq (s : State) :
    finishInstr s = { s with
      taken := false
      pc := if s.mode = .draining ∧ s.taken = false then BitVec.ofNat 32 (s.pc.toNat + 1) else s.pc } := by
  have hnext : BitVec.ofNat 32 (s.pc.toNat + 1) = s.pc + 1 := by simp [BitVec.ofNat_add]
  rw [hnext]
  unfold finishInstr
  cases hmode : s.mode <;> cases htaken : s.taken <;> simp [clearTaken, hmode]

theorem coreStep_of_word {s : State} {d : Diw} (hmode : s.mode = .draining) (hfetch : fetchWord s = some d) :
    coreStep s = runWord d s := by
  simp only [coreStep, hmode, hfetch]

theorem coreStep_of_noWord {s : State} (hmode : s.mode = .draining) (hfetch : fetchWord s = none) :
    coreStep s = .next (endDrain s) := by
  simp only [coreStep, hmode, hfetch]

/-- Settles O47: the core's turn fetches the word, and its instruction's answer is finished or passed on. -/
theorem aStepRunsTheDecodedInstruction : Obligations.AStepRunsTheDecodedInstruction := by
  rintro s d _ hcore hmode hword rfl
  have hstep : step s = runWord d { s with turns := s.turns.tail } :=
    (step_of_coreMoves hcore).trans (coreStep_of_word hmode hword)
  exact ⟨fun t hexec => by rw [hstep, runWord_of_next hexec, finishInstr_eq],
    fun f hexec => by rw [hstep, runWord_of_fault hexec]⟩

/-- Settles O48: at or beyond the end of the store there is no word to fetch. -/
theorem aDrainEndsBeyondTheStore : Obligations.ADrainEndsBeyondTheStore :=
  fun _ hcore hmode hend =>
    (step_of_coreMoves hcore).trans (coreStep_of_noWord hmode (List.getElem?_eq_none hend))

/-! ## Append-and-Drain (R100) -/

theorem appendAndDrain_refuses_full (d : Diw) {s : State} {n : Nat} (hmode : s.mode = .idle)
    (hcapacity : s.params.storeCapacity = some n) (hfull : n ≤ s.store.length) :
    appendAndDrain d s = refuseCall .storeFull s := by
  simp [appendAndDrain, hmode, storeFull, hcapacity, hfull]

theorem appendAndDrain_refuses_draining (d : Diw) {s : State} (hmode : s.mode = .draining) :
    appendAndDrain d s = refuseCall .busy s := by
  simp only [appendAndDrain, hmode]

/-- Settles O50: the call is served in its own turn, as the drain status and the room in the store say. -/
theorem executeAppendsAndDrainsOrIsRefused : Obligations.ExecuteAppendsAndDrainsOrIsRefused := by
  intro s d rest hturns
  have hstep : step s = .next (appendAndDrain d { s with turns := rest }) := step_call hturns
  exact ⟨fun hmode hroom => hstep.trans (congrArg _ (appendAndDrain_accepts d hmode hroom)),
    fun _ hmode hcapacity hfull => hstep.trans (congrArg _ (appendAndDrain_refuses_full d hmode hcapacity hfull)),
    fun hmode => hstep.trans (congrArg _ (appendAndDrain_refuses_draining d hmode))⟩

end Sys2Proof.Machine
end

section
/-! PROOFS. The data-movement family: what every instruction's rule says of its number and its checks, and MOV. -/

namespace Sys2Proof.Machine

/-! ## Numbers and checks of an instruction's constructor (R76, R105) -/

/-- R76: the table of numbers, read at one number, settles every word with that OPC. -/
theorem hasOpcode_of_decodeOpcode {n : Opc} {mk : Operands → Instr} (h : ∀ o, decodeOpcode n o = mk o) :
    HasOpcode n mk := by
  intro d hopc
  rw [decode, hopc, h]

/-- R105: the checks come first for every constructor that has a signature and carries its operands. -/
theorem checksFirst_of_signatureOf {sig : List SlotKind} {mk : Operands → Instr}
    (hsig : ∀ o, signatureOf (mk o) = some sig) (hoperands : ∀ o, operandsOf (mk o) = o) : ChecksFirst sig mk := by
  intro o e s hcheck
  exact exec_of_failed_check (hsig o) (by rw [hoperands, hcheck]) s

/-! ## The ALU's PASS (R113) -/

/-- R29: a flag write that enables no flag keeps them all. -/
@[simp] theorem commitFlags_none (f : FlagBits) : commitFlags {} f = f := rfl

/-- PASS writes its second operand to the view and no flag. -/
theorem commitAlu_pass (d : RegId) (a b : Word) (s : State) :
    commitAlu d (alu .pass a b) s = { s with regs := setReg d b s.regs } := by
  simp only [commitAlu, alu, aluPass, commitFlags_none]

/-! ## MOV (R140) -/

theorem exec_mov (o : Operands) (s : State) : exec (.mov o) s = execMov o s := rfl

/-- R140: on operands that pass the checks, MOV is the PASS of the source into the destination. -/
theorem exec_mov_dstSrc (d : RegId) (src : Src) (s : State) :
    exec (.mov (dstSrc d src)) s = .next { s with regs := setReg d (srcVal src s.regs) s.regs } := by
  rw [exec_mov, execMov, takeDstSrc_dstSrc, withChecked_ok, aluDstSrc, commitAlu_pass]

/-- Settles O15: the number and the checks by the tables, the effect because PASS gives back the source and writes no flag. -/
theorem movCopiesTheSourceValue : Obligations.MovCopiesTheSourceValue :=
  ⟨hasOpcode_of_decodeOpcode fun _ => rfl, checksFirst_of_signatureOf (fun _ => rfl) fun _ => rfl, exec_mov_dstSrc⟩

end Sys2Proof.Machine
end

section
/-! PROOFS. The arithmetic family: ADD, SUB, MUL, DIV, INC and DEC, the jumps right after SUB, and SUB as the inverse of ADD. -/

namespace Sys2Proof.Machine

/-! ## The flags of a sum and of a difference (R110, R111) -/

theorem zfOf_eq_decide (r : Word) : zfOf r = decide (r = 0) := beq_eq_decide r 0

/-- R39: a write of the four arithmetic flags keeps PF and AF. -/
theorem commitFlags_arithmetic (cf of zf sf : Bool) (f : FlagBits) :
    commitFlags { cf := some cf, of := some of, zf := some zf, sf := some sf } f =
      { f with cf := cf, of := of, zf := zf, sf := sf } := rfl

/-- R150, R111: the flags ADD leaves, by the rule's formulas. -/
theorem commitFlags_aluAdd (a b : Word) (f : FlagBits) :
    commitFlags (aluAdd a b).fl f = { f with
      cf := decide (0xFFFFFFFF < a.toNat + b.toNat)
      of := decide (a.getLsbD 31 = b.getLsbD 31 ∧ (a + b).getLsbD 31 ≠ a.getLsbD 31)
      zf := decide (a + b = 0)
      sf := (a + b).getLsbD 31 } := by
  obtain ⟨hcf, hof, -⟩ := addAndSubtractFlagsDetectOverflow a b
  rw [aluAdd, commitFlags_arithmetic, hcf, hof, zfOf_eq_decide, sfOf]

/-- R151, R111: the flags SUB leaves, by the rule's formulas. -/
theorem commitFlags_aluSub (a b : Word) (f : FlagBits) :
    commitFlags (aluSub a b).fl f = { f with
      cf := decide (b.toNat ≤ a.toNat)
      of := decide (a.getLsbD 31 ≠ b.getLsbD 31 ∧ (a - b).getLsbD 31 ≠ a.getLsbD 31)
      zf := decide (a - b = 0)
      sf := (a - b).getLsbD 31 } := by
  obtain ⟨-, -, hof, -⟩ := addAndSubtractFlagsDetectOverflow a b
  rw [aluSub, commitFlags_arithmetic, subCf, hof, zfOf_eq_decide, sfOf]

/-! ## ADD and SUB (R150, R151) -/

theorem exec_add (o : Operands) (s : State) : exec (.add o) s = execAdd o s := rfl

theorem exec_sub (o : Operands) (s : State) : exec (.sub o) s = execSub o s := rfl

theorem exec_add_dstSrc (d : RegId) (src : Src) (s : State) :
    exec (.add (dstSrc d src)) s = .next (commitAlu d (aluAdd (getReg d s.regs) (srcVal src s.regs)) s) := by
  rw [exec_add, execAdd, takeDstSrc_dstSrc, withChecked_ok, aluDstSrc, alu]

theorem exec_sub_dstSrc (d : RegId) (src : Src) (s : State) :
    exec (.sub (dstSrc d src)) s = .next (commitAlu d (aluSub (getReg d s.regs) (srcVal src s.regs)) s) := by
  rw [exec_sub, execSub, takeDstSrc_dstSrc, withChecked_ok, aluDstSrc, alu]

/-- Settles O16: the narrowed exact sum is the sum of words, and its flags are those of the rule. -/
theorem addWritesTheSumAndItsFlags : Obligations.AddWritesTheSumAndItsFlags := by
  refine ⟨hasOpcode_of_decodeOpcode fun _ => rfl, checksFirst_of_signatureOf (fun _ => rfl) fun _ => rfl,
    fun d src s => ?_⟩
  rw [exec_add_dstSrc, commitAlu, commitFlags_aluAdd]
  rfl

/-- Settles O17: the narrowed exact difference is the difference of words, and its flags are those of the rule. -/
theorem subWritesTheDifferenceAndItsFlags : Obligations.SubWritesTheDifferenceAndItsFlags := by
  refine ⟨hasOpcode_of_decodeOpcode fun _ => rfl, checksFirst_of_signatureOf (fun _ => rfl) fun _ => rfl,
    fun d src s => ?_⟩
  dsimp only
  rw [exec_sub_dstSrc, commitAlu, commitFlags_aluSub, ofInt_sub_toNat]
  rfl

/-! ## MUL and DIV (R152, R153) -/

theorem exec_mul (o : Operands) (s : State) : exec (.mul o) s = execMul o s := rfl

theorem exec_div (o : Operands) (s : State) : exec (.div o) s = execDiv o s := rfl

/-- The product of two words fits the 64 bits it is held in. -/
theorem toNat_product (a b : Word) : (product a b).toNat = a.toNat * b.toNat := by
  have hfits : a.toNat * b.toNat < 2 ^ 64 := (Nat.mul_lt_mul'' a.isLt b.isLt).trans_eq (by norm_num)
  rw [product, BitVec.toNat_ofNat, Nat.mod_eq_of_lt hfits]

theorem low_product (a b : Word) : (product a b).extractLsb' 0 32 = BitVec.ofNat 32 (a.toNat * b.toNat) := by
  rw [BitVec.extractLsb', toNat_product, Nat.shiftRight_zero]

/-- R152: the high word is the exact product divided by 2^32, which a word holds. -/
theorem mulHigh_eq (a b : Word) : mulHigh a b = decide (a.toNat * b.toNat / 2 ^ 32 ≠ 0) := by
  have hfits : a.toNat * b.toNat / 2 ^ 32 < 2 ^ 32 := Nat.div_lt_of_lt_mul (Nat.mul_lt_mul'' a.isLt b.isLt)
  have hhigh : ((product a b).extractLsb' 32 32).toNat = a.toNat * b.toNat / 2 ^ 32 := by
    rw [BitVec.extractLsb'_toNat, toNat_product, Nat.shiftRight_eq_div_pow, Nat.mod_eq_of_lt hfits]
  rw [Bool.eq_iff_iff, mulHigh, bne_iff_ne, decide_eq_true_iff, ← hhigh, ne_eq, ne_eq, BitVec.toNat_eq]
  rfl

/-- Settles O18: EAX alone takes the low word, and CF and OF say whether the high word is lost. -/
theorem mulWritesTheLowProductWord : Obligations.MulWritesTheLowProductWord := by
  refine ⟨hasOpcode_of_decodeOpcode fun _ => rfl, checksFirst_of_signatureOf (fun _ => rfl) fun _ => rfl,
    fun src s => ?_⟩
  rw [exec_mul, execMul, takeSrc_srcOnly, withChecked_ok, alu, aluMul, low_product, mulHigh_eq]
  rfl

/-- R153: on operands that pass the checks, a zero divisor raises and any other divides. -/
theorem exec_div_srcOnly (src : Src) (s : State) :
    exec (.div (srcOnly src)) s = .next (if srcVal src s.regs = 0 then raiseError .arithmeticError .nothing s
      else { s with
        regs := { s.regs with eax := BitVec.ofNat 32 (s.regs.eax.toNat / (srcVal src s.regs).toNat) } }) := by
  rw [exec_div, execDiv, takeSrc_srcOnly, withChecked_ok, alu, aluDiv]
  by_cases hzero : srcVal src s.regs = 0
  · simp [hzero]
  · rw [if_neg hzero, if_neg (by simpa using hzero)]
    rfl

/-- Settles O19, by whether the divisor is zero. -/
theorem divWritesTheQuotientOrRaises : Obligations.DivWritesTheQuotientOrRaises := by
  refine ⟨hasOpcode_of_decodeOpcode fun _ => rfl, checksFirst_of_signatureOf (fun _ => rfl) fun _ => rfl,
    fun src s hdivisor => ?_, fun src s hdivisor => ?_⟩
  · rw [exec_div_srcOnly, if_neg hdivisor]
  · rw [exec_div_srcOnly, if_pos hdivisor, raiseError]

/-! ## INC and DEC (R154, R155) -/

theorem exec_inc (o : Operands) (s : State) : exec (.inc o) s = execInc o s := rfl

theorem exec_dec (o : Operands) (s : State) : exec (.dec o) s = execDec o s := rfl

theorem exec_inc_dstOnly (d : RegId) (s : State) :
    exec (.inc (dstOnly d)) s = .next { s with regs := setReg d (getReg d s.regs + 1) s.regs } := by
  rw [exec_inc, execInc, takeDst_dstOnly, withChecked_ok, commitAlu, alu, aluInc, commitFlags_none]

theorem exec_dec_dstOnly (d : RegId) (s : State) :
    exec (.dec (dstOnly d)) s = .next { s with regs := setReg d (getReg d s.regs - 1) s.regs } := by
  rw [exec_dec, execDec, takeDst_dstOnly, withChecked_ok, commitAlu, alu, aluDec, commitFlags_none]

/-- Settles O20: one more and one less as words are the exact values narrowed. -/
theorem incAndDecStepTheDestination : Obligations.IncAndDecStepTheDestination := by
  refine ⟨hasOpcode_of_decodeOpcode fun _ => rfl, checksFirst_of_signatureOf (fun _ => rfl) fun _ => rfl,
    hasOpcode_of_decodeOpcode fun _ => rfl, checksFirst_of_signatureOf (fun _ => rfl) fun _ => rfl,
    fun d s => ⟨?_, ?_⟩⟩
  · exact exec_inc_dstOnly d s
  · have hless : BitVec.ofInt 32 ((getReg d s.regs).toNat - 1) = getReg d s.regs - 1 := ofInt_sub_toNat _ 1
    rw [exec_dec_dstOnly, hless]

/-! ## Jumps on the flags of a difference (R221, R223) -/

/-- R223: on an operand that passes the checks, the template transfers when its condition holds. -/
theorem jumpIf_srcOnly (cond : Bool) (src : Src) (s : State) :
    jumpIf cond (srcOnly src) s =
      .next (if cond = true then { s with pc := srcVal src s.regs, taken := true } else s) := by
  rw [jumpIf, takeSrc_srcOnly, withChecked_ok]
  rfl

/-- A jump made from the template is taken exactly on what its condition says of the flags. -/
theorem takenExactly_of_jumpIf {mk : Operands → Instr} {cond : FlagBits → Bool} {t : State} {p : Bool}
    (hcond : cond t.flags = p) (hjump : ∀ o, exec (mk o) t = jumpIf (cond t.flags) o t) (tgt : Src) :
    TakenExactly mk tgt t p := by
  rw [TakenExactly, hjump, hcond, jumpIf_srcOnly]

/-- Bit 31 of a difference, corrected by its overflow, is its sign. -/
theorem sfOf_sub_bne_subOf (a b : Word) : (sfOf (a - b) != subOf a b) = decide (a.toInt < b.toInt) := by
  rw [sfOf, bit31_eq_sign, subOf_eq_ssubOverflow]
  cases hover : a.ssubOverflow b
  · rw [BitVec.toInt_sub_of_not_ssubOverflow (by simp [hover]), Bool.bne_false, decide_eq_decide]
    omega
  · have hlow := @BitVec.toInt_sub_toInt_lt_twoPow_iff 32 a b
    have hhigh := @BitVec.twoPow_le_toInt_sub_toInt_iff 32 a b
    rw [BitVec.ssubOverflow, Bool.or_eq_true, decide_eq_true_iff, decide_eq_true_iff] at hover
    rw [BitVec.toInt_sub, Bool.bne_true, ← decide_not, decide_eq_decide]
    omega

/-- The flags agree with `a - b` in all but the carry, which SUB and CMP set differently (C3). -/
structure DifferenceFlags (a b : Word) (f : FlagBits) : Prop where
  zf : f.zf = zfOf (a - b)
  sf : f.sf = sfOf (a - b)
  of : f.of = subOf a b

section
variable {a b : Word} {f : FlagBits} (h : DifferenceFlags a b f)
include h

theorem DifferenceFlags.zf_eq : f.zf = decide (a = b) := by
  rw [h.zf, zfOf_eq_decide, decide_eq_decide]
  exact sub_eq_zero

theorem DifferenceFlags.equal : condEqual f = decide (a = b) := h.zf_eq

theorem DifferenceFlags.notEqual : condNotEqual f = decide (a ≠ b) := by
  rw [condNotEqual, h.zf_eq, decide_not]

theorem DifferenceFlags.less : condLess f = decide (a.toInt < b.toInt) := by
  rw [condLess, h.sf, h.of, sfOf_sub_bne_subOf]

theorem DifferenceFlags.greater : condGreater f = decide (b.toInt < a.toInt) := by
  have hsigns : (f.sf == f.of) = !decide (a.toInt < b.toInt) := by
    rw [← h.less, condLess, bne, Bool.not_not]
  rw [condGreater, h.zf_eq, hsigns, Bool.eq_iff_iff]
  simp only [Bool.and_eq_true, Bool.not_eq_true', decide_eq_false_iff_not, decide_eq_true_iff, ← BitVec.toInt_inj]
  omega

end

/-- R151: the flags after SUB but its carry. -/
theorem differenceFlags_aluSub (a b : Word) (f : FlagBits) : DifferenceFlags a b (commitFlags (aluSub a b).fl f) :=
  ⟨rfl, rfl, rfl⟩

/-- C2: SUB's carry is "no borrow". -/
theorem condBelow_aluSub (a b : Word) (f : FlagBits) :
    condBelow (commitFlags (aluSub a b).fl f) = decide (b.toNat ≤ a.toNat) := rfl

theorem condAboveEqual_aluSub (a b : Word) (f : FlagBits) :
    condAboveEqual (commitFlags (aluSub a b).fl f) = decide (a.toNat < b.toNat) := by
  rw [condAboveEqual, ← condBelow, condBelow_aluSub, ← decide_not, decide_eq_decide, Nat.not_le]

/-- Equal operands need no borrow, so ZF adds nothing to the carry. -/
theorem condBelowEqual_aluSub (a b : Word) (f : FlagBits) :
    condBelowEqual (commitFlags (aluSub a b).fl f) = decide (b.toNat ≤ a.toNat) := by
  rw [condBelowEqual, ← condBelow, condBelow_aluSub, (differenceFlags_aluSub a b f).zf_eq, ← Bool.decide_or,
    decide_eq_decide, BitVec.toNat_eq]
  omega

theorem condAbove_aluSub (a b : Word) (f : FlagBits) :
    condAbove (commitFlags (aluSub a b).fl f) = decide (a.toNat < b.toNat) := by
  rw [condAbove, ← Bool.not_or, ← condBelowEqual, condBelowEqual_aluSub, ← decide_not, decide_eq_decide, Nat.not_le]

/-- Settles O35: each jump reads its condition from the flags SUB leaves. -/
theorem afterSubtractTheCarryJumpsAreInverted : Obligations.AfterSubtractTheCarryJumpsAreInverted := by
  intro d src tgt s a b
  have hdiff : DifferenceFlags a b (commitFlags (aluSub a b).fl s.flags) := differenceFlags_aluSub a b s.flags
  have habove := condAbove_aluSub a b s.flags
  have haboveEqual := condAboveEqual_aluSub a b s.flags
  have hbelow := condBelow_aluSub a b s.flags
  have hbelowEqual := condBelowEqual_aluSub a b s.flags
  refine ⟨_, exec_sub_dstSrc d src s, ?je, ?jne, ?ja, ?jnbe, ?jae, ?jnb, ?jnc, ?jb, ?jnae, ?jc, ?jbe, ?jna, ?jg, ?jl⟩
  case je => exact takenExactly_of_jumpIf hdiff.equal (fun _ => rfl) tgt
  case jne => exact takenExactly_of_jumpIf hdiff.notEqual (fun _ => rfl) tgt
  case ja | jnbe => exact takenExactly_of_jumpIf habove (fun _ => rfl) tgt
  case jae | jnb | jnc => exact takenExactly_of_jumpIf haboveEqual (fun _ => rfl) tgt
  case jb | jnae | jc => exact takenExactly_of_jumpIf hbelow (fun _ => rfl) tgt
  case jbe | jna => exact takenExactly_of_jumpIf hbelowEqual (fun _ => rfl) tgt
  case jg => exact takenExactly_of_jumpIf hdiff.greater (fun _ => rfl) tgt
  case jl => exact takenExactly_of_jumpIf hdiff.less (fun _ => rfl) tgt

/-! ## Reading back a register view (R22, R23) -/

/-- A bank is what is read from it, bit by bit. -/
theorem RegBank.eq_of_bits {g g' : RegBank}
    (h : ∀ f k, (readFamily f g).getLsbD k = (readFamily f g').getLsbD k) : g = g' := by
  have hread : ∀ f, readFamily f g = readFamily f g' := fun f => BitVec.eq_of_getLsbD_eq fun k _ => h f k
  cases g
  cases g'
  rw [RegBank.mk.injEq]
  exact ⟨hread .eax, hread .ebx, hread .ecx, hread .edx, hread .esi, hread .edi, hread .esp, hread .ebp⟩

/-- R23, bit by bit, in every family. -/
theorem readFamily_setReg_bit (id : RegId) (v : Word) (g : RegBank) (f : Family) (k : Nat) :
    (readFamily f (setReg id v g)).getLsbD k =
      if f = familyOf id ∧ viewLo (viewOf id) ≤ k ∧ k < viewLo (viewOf id) + viewWidth (viewOf id)
      then v.getLsbD (k - viewLo (viewOf id)) else (readFamily f g).getLsbD k :=
  writingAViewChangesOnlyItsSlice.1 id v g f k

/-- Writing a view its own value changes nothing. -/
theorem setReg_getReg (id : RegId) (g : RegBank) : setReg id (getReg id g) g = g := by
  refine RegBank.eq_of_bits fun f k => ?_
  rw [readFamily_setReg_bit]
  split
  · next hin =>
    obtain ⟨rfl, hlo, hhi⟩ := hin
    rw [getReg_bit, decide_eq_true (by omega), Bool.true_and, Nat.add_sub_cancel' hlo]
  · rfl

/-- Of two writes to one view the later one stays. -/
theorem setReg_setReg (id : RegId) (v w : Word) (g : RegBank) : setReg id v (setReg id w g) = setReg id v g := by
  refine RegBank.eq_of_bits fun f k => ?_
  rw [readFamily_setReg_bit, readFamily_setReg_bit, readFamily_setReg_bit]
  split_ifs <;> rfl

/-- A 32-bit register reads back the whole word written to it. -/
theorem getReg_setReg_full {id : RegId} (h : viewOf id = .full) (v : Word) (g : RegBank) :
    getReg id (setReg id v g) = v := by
  refine BitVec.eq_of_getLsbD_eq fun k hk => ?_
  rw [getReg_bit, setReg_bit, h]
  simp [viewLo, viewWidth, hk]

/-! ## SUB undoes ADD -/

/-- Settles O40: a 32-bit register holds the whole sum, so SUB finds it again and takes the immediate back off. -/
theorem addThenSubRestoresTheRegister : Obligations.AddThenSubRestoresTheRegister := by
  intro d b s hfull
  have hback : getReg d (setReg d (getReg d s.regs + b) s.regs) - b = getReg d s.regs := by
    rw [getReg_setReg_full hfull, BitVec.add_sub_cancel]
  refine ⟨_, _, exec_add_dstSrc d (.imm b) s, exec_sub_dstSrc d (.imm b) _, ?regs, ?zf⟩
  case regs =>
    calc setReg d (getReg d (setReg d (getReg d s.regs + b) s.regs) - b) (setReg d (getReg d s.regs + b) s.regs)
        = setReg d (getReg d s.regs) (setReg d (getReg d s.regs + b) s.regs) := by rw [hback]
      _ = s.regs := by rw [setReg_setReg, setReg_getReg]
  case zf =>
    calc zfOf (getReg d (setReg d (getReg d s.regs + b) s.regs) - b)
        = decide (getReg d s.regs = 0) := by rw [hback, zfOf_eq_decide]

end Sys2Proof.Machine
end

section
/-! PROOFS. The bitwise family: AND, OR and XOR with the flags of their result, and NOT, which writes none. -/

namespace Sys2Proof.Machine

/-! ## The flags of a logical result (R110, R180) -/

theorem pfOf_eq_decide (r : Word) : pfOf r = decide (popcountLow8 r % 2 = 0) := beq_eq_decide _ 0

/-- R39, R180: ZF, SF and PF read the result, CF and OF are cleared, and AF keeps its value. -/
theorem commitFlags_logicFlags (r : Word) (f : FlagBits) :
    commitFlags (logicFlags r) f = { f with
      zf := decide (r = 0), sf := r.getLsbD 31, pf := decide (popcountLow8 r % 2 = 0), cf := false, of := false } := by
  rw [← zfOf_eq_decide, ← pfOf_eq_decide, ← sfOf]
  rfl

/-! ## AND, OR and XOR (R180, R181, R182) -/

theorem exec_and (o : Operands) (s : State) : exec (.and o) s = execAnd o s := rfl

theorem exec_or (o : Operands) (s : State) : exec (.or o) s = execOr o s := rfl

theorem exec_xor (o : Operands) (s : State) : exec (.xor o) s = execXor o s := rfl

theorem exec_and_dstSrc (d : RegId) (src : Src) (s : State) :
    exec (.and (dstSrc d src)) s = .next (commitAlu d (aluAnd (getReg d s.regs) (srcVal src s.regs)) s) := by
  rw [exec_and, execAnd, takeDstSrc_dstSrc, withChecked_ok, aluDstSrc, alu]

theorem exec_or_dstSrc (d : RegId) (src : Src) (s : State) :
    exec (.or (dstSrc d src)) s = .next (commitAlu d (aluOr (getReg d s.regs) (srcVal src s.regs)) s) := by
  rw [exec_or, execOr, takeDstSrc_dstSrc, withChecked_ok, aluDstSrc, alu]

theorem exec_xor_dstSrc (d : RegId) (src : Src) (s : State) :
    exec (.xor (dstSrc d src)) s = .next (commitAlu d (aluXor (getReg d s.regs) (srcVal src s.regs)) s) := by
  rw [exec_xor, execXor, takeDstSrc_dstSrc, withChecked_ok, aluDstSrc, alu]

/-- Settles O21: the numbers and the checks by the tables; each operation commits its own result with the one flag write of
all three. -/
theorem logicWritesTheResultAndClearsCarryAndOverflow : Obligations.LogicWritesTheResultAndClearsCarryAndOverflow := by
  refine ⟨hasOpcode_of_decodeOpcode fun _ => rfl, hasOpcode_of_decodeOpcode fun _ => rfl,
    hasOpcode_of_decodeOpcode fun _ => rfl, checksFirst_of_signatureOf (fun _ => rfl) fun _ => rfl,
    checksFirst_of_signatureOf (fun _ => rfl) fun _ => rfl, checksFirst_of_signatureOf (fun _ => rfl) fun _ => rfl,
    fun d src s => ⟨?and, ?or, ?xor⟩⟩
  case and => rw [exec_and_dstSrc, commitAlu, aluAnd, commitFlags_logicFlags]
  case or => rw [exec_or_dstSrc, commitAlu, aluOr, commitFlags_logicFlags]
  case xor => rw [exec_xor_dstSrc, commitAlu, aluXor, commitFlags_logicFlags]

/-! ## NOT (R183) -/

theorem exec_not (o : Operands) (s : State) : exec (.not o) s = execNot o s := rfl

/-- R183: on operands that pass the checks, NOT writes the complement of the view and commits no flag. -/
theorem exec_not_dstOnly (d : RegId) (s : State) :
    exec (.not (dstOnly d)) s = .next { s with regs := setReg d (~~~(getReg d s.regs)) s.regs } := by
  rw [exec_not, execNot, takeDst_dstOnly, withChecked_ok, commitAlu, alu, aluNot, commitFlags_none]

/-- Settles O22: the number and the checks by the tables, the effect because NOT's ALU output writes no flag. -/
theorem notComplementsTheView : Obligations.NotComplementsTheView :=
  ⟨hasOpcode_of_decodeOpcode fun _ => rfl, checksFirst_of_signatureOf (fun _ => rfl) fun _ => rfl, exec_not_dstOnly⟩

end Sys2Proof.Machine
end

section
/-! PROOFS. The shift family: SAL, SHL, SAR and SHR by the masked count, none of which has an effect when that count is 0. -/

namespace Sys2Proof.Machine

/-! ## The shifted words as arithmetic (R191, R193, R194) -/

/-- A left shift multiplies by a power of two and keeps the low 32 bits. -/
theorem shiftLeft_eq_ofNat (a : Word) (n : Nat) : a <<< n = BitVec.ofNat 32 (a.toNat * 2 ^ n) := by
  refine BitVec.eq_of_toNat_eq ?_
  rw [BitVec.toNat_shiftLeft, BitVec.toNat_ofNat, Nat.shiftLeft_eq]

/-- A logical right shift is the unsigned quotient by a power of two. -/
theorem ushiftRight_eq_ofNat (a : Word) (n : Nat) : a >>> n = BitVec.ofNat 32 (a.toNat / 2 ^ n) := by
  refine BitVec.eq_of_toNat_eq ?_
  have hlt : a.toNat / 2 ^ n < 2 ^ 32 := (Nat.div_le_self _ _).trans_lt a.isLt
  rw [BitVec.toNat_ushiftRight, BitVec.toNat_ofNat, Nat.shiftRight_eq_div_pow, Nat.mod_eq_of_lt hlt]

/-- An arithmetic right shift is the signed quotient by a power of two, rounded down. -/
theorem sshiftRight_eq_ofInt (a : Word) (n : Nat) : a.sshiftRight n = BitVec.ofInt 32 (a.toInt / 2 ^ n) := by
  rw [BitVec.sshiftRight, Int.shiftRight_eq_div_pow, Int.natCast_pow, Nat.cast_ofNat]

/-! ## The outputs of the ALU for a nonzero count -/

/-- R191: the exclusive or of the two top bits says that they differ. -/
theorem shlOf_eq_decide (r : Word) : shlOf r = decide (r.getLsbD 31 ≠ r.getLsbD 30) := by
  rw [Bool.eq_iff_iff, shlOf, decide_eq_true_iff, Bool.xor_iff_ne]

section
variable {a b : Word} (hn : shiftCount b ≠ 0)
include hn

theorem aluShl_of_count_ne_zero : aluShl a b =
    { r := a <<< shiftCount b
      fl := shiftFlags (shlCf a (shiftCount b)) (shlOf (a <<< shiftCount b)) (a <<< shiftCount b) } :=
  if_neg hn

theorem aluSar_of_count_ne_zero : aluSar a b =
    { r := a.sshiftRight (shiftCount b)
      fl := shiftFlags (shrCf a (shiftCount b)) false (a.sshiftRight (shiftCount b)) } :=
  if_neg hn

theorem aluShr_of_count_ne_zero : aluShr a b =
    { r := a >>> shiftCount b, fl := shiftFlags (shrCf a (shiftCount b)) (shrOf a) (a >>> shiftCount b) } :=
  if_neg hn

end

/-! ## The commit of a shift (R39, R190) -/

/-- R39: ZF, SF and PF read the result, CF and OF take the values given, and AF keeps its own. -/
theorem commitFlags_shiftFlags (cf of : Bool) (r : Word) (f : FlagBits) :
    commitFlags (shiftFlags cf of r) f = { f with
      cf := cf, of := of, zf := decide (r = 0), sf := r.getLsbD 31, pf := decide (popcountLow8 r % 2 = 0) } := by
  rw [← zfOf_eq_decide, ← pfOf_eq_decide, ← sfOf]
  rfl

/-- R190: a masked count of 0 leaves the state alone; any other commits the ALU's result with the flags of a shift. -/
theorem shiftDstSrc_eq {op : AluOp} {d : RegId} {src : Src} {s : State} {r : Word} {cf of : Bool}
    (halu : shiftCount (srcVal src s.regs) ≠ 0 →
      alu op (getReg d s.regs) (srcVal src s.regs) = { r := r, fl := shiftFlags cf of r }) :
    shiftDstSrc op d src s = if shiftCount (srcVal src s.regs) = 0 then s else { s with
      regs := setReg d r s.regs
      flags := { s.flags with
        cf := cf, of := of, zf := decide (r = 0), sf := r.getLsbD 31, pf := decide (popcountLow8 r % 2 = 0) } } := by
  rw [shiftDstSrc]
  split
  · rfl
  · next hn => rw [aluDstSrc, halu hn, commitAlu, commitFlags_shiftFlags]

/-! ## SAL, SHL, SAR and SHR (R190 to R194) -/

theorem exec_sal (o : Operands) (s : State) : exec (.sal o) s = execSal o s := rfl

theorem exec_shl (o : Operands) (s : State) : exec (.shl o) s = execShl o s := rfl

theorem exec_sar (o : Operands) (s : State) : exec (.sar o) s = execSar o s := rfl

theorem exec_shr (o : Operands) (s : State) : exec (.shr o) s = execShr o s := rfl

theorem exec_sal_dstSrc (d : RegId) (src : Src) (s : State) :
    exec (.sal (dstSrc d src)) s = .next (shiftDstSrc .shl d src s) := by
  rw [exec_sal, execSal, takeDstSrc_dstSrc, withChecked_ok]

theorem exec_shl_dstSrc (d : RegId) (src : Src) (s : State) :
    exec (.shl (dstSrc d src)) s = .next (shiftDstSrc .shl d src s) := by
  rw [exec_shl, execShl, takeDstSrc_dstSrc, withChecked_ok]

theorem exec_sar_dstSrc (d : RegId) (src : Src) (s : State) :
    exec (.sar (dstSrc d src)) s = .next (shiftDstSrc .sar d src s) := by
  rw [exec_sar, execSar, takeDstSrc_dstSrc, withChecked_ok]

theorem exec_shr_dstSrc (d : RegId) (src : Src) (s : State) :
    exec (.shr (dstSrc d src)) s = .next (shiftDstSrc .shr d src s) := by
  rw [exec_shr, execShr, takeDstSrc_dstSrc, withChecked_ok]

/-- Settles O23: SAL and SHL commit one and the same shift; its result is the product by a power of two, its overflow the
disagreement of that product's two top bits. -/
theorem leftShiftsAreByTheMaskedCount : Obligations.LeftShiftsAreByTheMaskedCount := by
  refine ⟨hasOpcode_of_decodeOpcode fun _ => rfl, hasOpcode_of_decodeOpcode fun _ => rfl,
    checksFirst_of_signatureOf (fun _ => rfl) fun _ => rfl, checksFirst_of_signatureOf (fun _ => rfl) fun _ => rfl,
    fun d src s => ?_⟩
  dsimp only
  rw [exec_sal_dstSrc, exec_shl_dstSrc, and_self, shiftDstSrc_eq aluShl_of_count_ne_zero, shlOf_eq_decide, shlCf,
    shiftLeft_eq_ofNat, shiftCount_eq_mod]

/-- Settles O24: the result is the signed quotient by a power of two, rounded down; OF is committed as cleared. -/
theorem sarShiftsInTheSign : Obligations.SarShiftsInTheSign := by
  refine ⟨hasOpcode_of_decodeOpcode fun _ => rfl, checksFirst_of_signatureOf (fun _ => rfl) fun _ => rfl,
    fun d src s => ?_⟩
  dsimp only
  rw [exec_sar_dstSrc, shiftDstSrc_eq aluSar_of_count_ne_zero, shrCf, sshiftRight_eq_ofInt, shiftCount_eq_mod]

/-- Settles O25: the result is the unsigned quotient by a power of two; OF is read from the operand, not from the result. -/
theorem shrShiftsInZerosAndKeepsBit31AsOverflow : Obligations.ShrShiftsInZerosAndKeepsBit31AsOverflow := by
  refine ⟨hasOpcode_of_decodeOpcode fun _ => rfl, checksFirst_of_signatureOf (fun _ => rfl) fun _ => rfl,
    fun d src s => ?_⟩
  dsimp only
  rw [exec_shr_dstSrc, shiftDstSrc_eq aluShr_of_count_ne_zero, shrCf, shrOf, ushiftRight_eq_ofNat, shiftCount_eq_mod]

end Sys2Proof.Machine
end

section
/-! PROOFS. The stack family: PUSH and POP on the operand stack, each with its error, and POP as the inverse of PUSH. -/

namespace Sys2Proof.Machine

/-! ## The operand stack (R61) -/

/-- An unbounded stack has room; a finite one has when it holds fewer words than its capacity. -/
theorem stackFull_eq_false_iff (s : State) :
    stackFull s = false ↔ ∀ n, s.params.stackCapacity = some n → s.stack.length < n := by
  refine ⟨fun h _ hn => stack_room h hn, fun hroom => ?_⟩
  unfold stackFull
  split
  · next n hn => exact decide_eq_false (Nat.not_le.mpr (hroom n hn))
  · rfl

/-- D21: a finite stack at its capacity is full. -/
theorem stackFull_of_capacity_le {s : State} {n : Nat} (hn : s.params.stackCapacity = some n)
    (hfull : n ≤ s.stack.length) : stackFull s = true := by
  simp [stackFull, hn, hfull]

theorem stackTop_cons {s : State} {v : Word} {rest : List Word} (h : s.stack = v :: rest) (rule : Word → Result) :
    stackTop s rule = rule v := by
  simp only [stackTop, h]

theorem stackTop_nil {s : State} (h : s.stack = []) (rule : Word → Result) :
    stackTop s rule = .next (raiseError .stackUnderflow .nothing s) := by
  simp only [stackTop, h]

/-! ## PUSH and POP (R210, R211) -/

theorem exec_push (o : Operands) (s : State) : exec (.push o) s = execPush o s := rfl

theorem exec_pop (o : Operands) (s : State) : exec (.pop o) s = execPop o s := rfl

/-- R210: on an operand that passes the checks, PUSH pushes its value. -/
theorem exec_push_srcOnly (src : Src) (s : State) :
    exec (.push (srcOnly src)) s = .next (pushWord (srcVal src s.regs) s) := by
  rw [exec_push, execPush, takeSrc_srcOnly, withChecked_ok, alu, aluPass]

/-- R211: on an operand that passes the checks, POP takes the top off and writes it to the view. -/
theorem exec_pop_dstOnly (d : RegId) (s : State) :
    exec (.pop (dstOnly d)) s =
      stackTop s fun v => .next { s with regs := setReg d v s.regs, stack := s.stack.tail } := by
  rw [exec_pop, execPop, takeDst_dstOnly, withChecked_ok]
  rfl

theorem exec_push_of_room {s : State} (hroom : ∀ n, s.params.stackCapacity = some n → s.stack.length < n) (src : Src) :
    exec (.push (srcOnly src)) s = .next { s with stack := srcVal src s.regs :: s.stack } := by
  have hfull : ¬ stackFull s = true := Bool.eq_false_iff.mp ((stackFull_eq_false_iff s).mpr hroom)
  rw [exec_push_srcOnly, pushWord, if_neg hfull]

theorem exec_pop_cons {s : State} {v : Word} {rest : List Word} (h : s.stack = v :: rest) (d : RegId) :
    exec (.pop (dstOnly d)) s = .next { s with regs := setReg d v s.regs, stack := rest } := by
  rw [exec_pop_dstOnly, stackTop_cons h, h, List.tail_cons]

/-- Settles O28: POP finds the view's own value on top, and writing a view its own value changes nothing. -/
theorem pushThenPopRestoresTheView : Obligations.PushThenPopRestoresTheView := by
  intro d s hroom
  refine ⟨_, exec_push_of_room hroom (.reg d), ?_⟩
  have hsame : setReg d (srcVal (.reg d) s.regs) s.regs = s.regs := setReg_getReg d s.regs
  rw [exec_pop_cons rfl d, hsame]

/-- Settles O26: the number and the checks by the tables, the effect by whether the stack is full. -/
theorem pushPutsTheValueOnTopOrRaises : Obligations.PushPutsTheValueOnTopOrRaises := by
  refine ⟨hasOpcode_of_decodeOpcode fun _ => rfl, checksFirst_of_signatureOf (fun _ => rfl) fun _ => rfl,
    fun src s hroom => exec_push_of_room hroom src, fun src s n hn hfull => ?_⟩
  rw [exec_push_srcOnly, pushWord, if_pos (stackFull_of_capacity_le hn hfull), raiseError]

/-- Settles O27: the number and the checks by the tables, the effects by whether the stack has a top. -/
theorem popTakesTheTopOrRaises : Obligations.PopTakesTheTopOrRaises := by
  refine ⟨hasOpcode_of_decodeOpcode fun _ => rfl, checksFirst_of_signatureOf (fun _ => rfl) fun _ => rfl,
    ?popTop, ?popEmpty, ?peekTop, ?peekEmpty⟩
  case popTop => exact fun d v rest s h => exec_pop_cons h d
  case popEmpty =>
    intro d s h
    rw [exec_pop_dstOnly, stackTop_nil h, raiseError]
  case peekTop => exact fun v rest s rule h => stackTop_cons h rule
  case peekEmpty =>
    intro s rule h
    rw [stackTop_nil h, raiseError]

end Sys2Proof.Machine
end

section
/-! PROOFS. The control-flow family: JMP, the 30 conditional jumps by their conditions, and each of them right after CMP. -/

namespace Sys2Proof.Machine

/-! ## The conditions of the jumps (R221) -/

theorem condGreaterEqual_eq_not_condLess (f : FlagBits) : condGreaterEqual f = !condLess f := by
  rw [condGreaterEqual, condLess, bne, Bool.not_not]

theorem condLessEqual_eq_not_condGreater (f : FlagBits) : condLessEqual f = !condGreater f := by
  rw [condLessEqual, condGreater, Bool.not_and, Bool.not_not, bne]

theorem condAbove_eq_not_condBelowEqual (f : FlagBits) : condAbove f = !condBelowEqual f := by
  rw [condAbove, condBelowEqual, Bool.not_or]

theorem condBelowEqual_eq_decide (f : FlagBits) : condBelowEqual f = decide (f.cf = true ∨ f.zf = true) := by
  rw [condBelowEqual, Bool.decide_or, Bool.decide_eq_true, Bool.decide_eq_true]

theorem condAbove_eq_decide (f : FlagBits) : condAbove f = decide (f.cf = false ∧ f.zf = false) := by
  rw [condAbove, Bool.decide_and, Bool.decide_eq_false, Bool.decide_eq_false]

theorem condGreaterEqual_eq_decide (f : FlagBits) : condGreaterEqual f = decide (f.sf = f.of) := beq_eq_decide f.sf f.of

theorem condLess_eq_decide (f : FlagBits) : condLess f = decide (f.sf ≠ f.of) := by
  rw [decide_not, ← condGreaterEqual_eq_decide, condGreaterEqual_eq_not_condLess, Bool.not_not]

theorem condGreater_eq_decide (f : FlagBits) : condGreater f = decide (f.zf = false ∧ f.sf = f.of) := by
  rw [condGreater, Bool.decide_and, Bool.decide_eq_false, ← condGreaterEqual_eq_decide, condGreaterEqual]

theorem condLessEqual_eq_decide (f : FlagBits) : condLessEqual f = decide (f.zf = true ∨ f.sf ≠ f.of) := by
  rw [condLessEqual, Bool.decide_or, Bool.decide_eq_true, ← condLess_eq_decide, condLess]

/-! ## JMP (R222) -/

theorem exec_jmp (o : Operands) (s : State) : exec (.jmp o) s = execJmp o s := rfl

theorem exec_jmp_srcOnly (src : Src) (s : State) :
    exec (.jmp (srcOnly src)) s = .next { s with pc := srcVal src s.regs, taken := true } := by
  rw [exec_jmp, execJmp, takeSrc_srcOnly, withChecked_ok, transferTo]

/-- Settles O29: the number and the checks by the tables, the effect because the transfer never looks at the store. -/
theorem jmpTransfersAlways : Obligations.JmpTransfersAlways :=
  ⟨hasOpcode_of_decodeOpcode fun _ => rfl, checksFirst_of_signatureOf (fun _ => rfl) fun _ => rfl, exec_jmp_srcOnly⟩

/-! ## The conditional jumps (R223 to R253) -/

/-- R223: the template's checks come before its condition. -/
theorem jumpIf_of_failed_check {o : Operands} {e : OperandError} (hcheck : checkOperands [.regImm] o = some e)
    (cond : Bool) (s : State) : jumpIf cond o s = .next (raiseOperandError e s) := by
  rw [jumpIf, takeSrc_of_check o e hcheck, withChecked]

/-- A jump made from the template follows the rule of conditional jumps on the template's condition. -/
theorem jumpsWhen_of_jumpIf {n : Opc} {mk : Operands → Instr} {cond c : FlagBits → Bool} (hcond : ∀ f, cond f = c f)
    (hnumber : ∀ o, decodeOpcode n o = mk o) (hjump : ∀ o s, exec (mk o) s = jumpIf (cond s.flags) o s) :
    JumpsWhen n mk c := by
  refine ⟨hasOpcode_of_decodeOpcode hnumber, fun o e s hcheck => ?checks, fun src s => ?effect⟩
  case checks => rw [hjump, jumpIf_of_failed_check hcheck]
  case effect => rw [hjump, jumpIf_srcOnly, hcond]

/-- Settles O30: each jump is the template on its condition, which is the one the source gives. -/
theorem jumpsWithTheSourcesConditions : Obligations.JumpsWithTheSourcesConditions := by
  refine ⟨?je, ?jz, ?ja, ?jnbe, ?jg, ?jnle, ?jl, ?jnge⟩
  case je | jz => exact jumpsWhen_of_jumpIf (cond := condEqual) (fun _ => rfl) (fun _ => rfl) fun _ _ => rfl
  case ja | jnbe => exact jumpsWhen_of_jumpIf condAbove_eq_decide (fun _ => rfl) fun _ _ => rfl
  case jg | jnle => exact jumpsWhen_of_jumpIf condGreater_eq_decide (fun _ => rfl) fun _ _ => rfl
  case jl | jnge => exact jumpsWhen_of_jumpIf condLess_eq_decide (fun _ => rfl) fun _ _ => rfl

/-- Settles O31: each jump is the template on its condition, which is the one of the spec's table. -/
theorem jumpsWithTheSpecsOwnConditions : Obligations.JumpsWithTheSpecsOwnConditions := by
  refine ⟨?jne, ?jnz, ?jae, ?jnb, ?jb, ?jnae, ?jbe, ?jna, ?jc, ?jnc, ?jge, ?jnl, ?jle, ?jng, ?jo, ?jno, ?js, ?jns,
    ?jp, ?jpe, ?jnp, ?jpo⟩
  case jne | jnz =>
    exact jumpsWhen_of_jumpIf (cond := condNotEqual) (fun _ => Bool.decide_eq_false.symm) (fun _ => rfl) fun _ _ => rfl
  case jae | jnb =>
    exact jumpsWhen_of_jumpIf (cond := condAboveEqual) (fun _ => Bool.decide_eq_false.symm) (fun _ => rfl) fun _ _ => rfl
  case jb | jnae => exact jumpsWhen_of_jumpIf (cond := condBelow) (fun _ => rfl) (fun _ => rfl) fun _ _ => rfl
  case jbe | jna => exact jumpsWhen_of_jumpIf condBelowEqual_eq_decide (fun _ => rfl) fun _ _ => rfl
  case jc => exact jumpsWhen_of_jumpIf (cond := condCarry) (fun _ => rfl) (fun _ => rfl) fun _ _ => rfl
  case jnc =>
    exact jumpsWhen_of_jumpIf (cond := condNoCarry) (fun _ => Bool.decide_eq_false.symm) (fun _ => rfl) fun _ _ => rfl
  case jge | jnl => exact jumpsWhen_of_jumpIf condGreaterEqual_eq_decide (fun _ => rfl) fun _ _ => rfl
  case jle | jng => exact jumpsWhen_of_jumpIf condLessEqual_eq_decide (fun _ => rfl) fun _ _ => rfl
  case jo => exact jumpsWhen_of_jumpIf (cond := condOverflow) (fun _ => rfl) (fun _ => rfl) fun _ _ => rfl
  case jno =>
    exact jumpsWhen_of_jumpIf (cond := condNoOverflow) (fun _ => Bool.decide_eq_false.symm) (fun _ => rfl) fun _ _ => rfl
  case js => exact jumpsWhen_of_jumpIf (cond := condSign) (fun _ => rfl) (fun _ => rfl) fun _ _ => rfl
  case jns =>
    exact jumpsWhen_of_jumpIf (cond := condNoSign) (fun _ => Bool.decide_eq_false.symm) (fun _ => rfl) fun _ _ => rfl
  case jp | jpe => exact jumpsWhen_of_jumpIf (cond := condParity) (fun _ => rfl) (fun _ => rfl) fun _ _ => rfl
  case jnp | jpo =>
    exact jumpsWhen_of_jumpIf (cond := condNoParity) (fun _ => Bool.decide_eq_false.symm) (fun _ => rfl) fun _ _ => rfl

/-! ## The signed and the sign conditions on the flags of a difference -/

section
variable {a b : Word} {f : FlagBits} (h : DifferenceFlags a b f)
include h

theorem DifferenceFlags.greaterEqual : condGreaterEqual f = decide (b.toInt ≤ a.toInt) := by
  rw [condGreaterEqual_eq_not_condLess, h.less, ← decide_not, decide_eq_decide, Int.not_lt]

theorem DifferenceFlags.lessEqual : condLessEqual f = decide (a.toInt ≤ b.toInt) := by
  rw [condLessEqual_eq_not_condGreater, h.greater, ← decide_not, decide_eq_decide, Int.not_lt]

theorem DifferenceFlags.overflow :
    condOverflow f = decide (a.toInt - b.toInt < -2 ^ 31 ∨ 2 ^ 31 ≤ a.toInt - b.toInt) := by
  obtain ⟨-, -, -, -, hrange⟩ := addAndSubtractFlagsDetectOverflow a b
  rw [condOverflow, h.of, hrange]

theorem DifferenceFlags.noOverflow :
    condNoOverflow f = decide (-2 ^ 31 ≤ a.toInt - b.toInt ∧ a.toInt - b.toInt < 2 ^ 31) := by
  rw [condNoOverflow, ← condOverflow, h.overflow, ← decide_not, decide_eq_decide, not_or, Int.not_lt, Int.not_le]

theorem DifferenceFlags.sign : condSign f = (a - b).getLsbD 31 := h.sf

theorem DifferenceFlags.noSign : condNoSign f = !(a - b).getLsbD 31 := congrArg (!·) h.sf

end

/-! ## The carry conditions on the flags of a comparison (R260) -/

/-- The flags CMP leaves: those of the difference, with the conventional borrow as the carry (C3). -/
structure CompareFlags (a b : Word) (f : FlagBits) : Prop extends DifferenceFlags a b f where
  cf : f.cf = cmpCf a b

section
variable {a b : Word} {f : FlagBits} (h : CompareFlags a b f)
include h

theorem CompareFlags.below : condBelow f = decide (a.toNat < b.toNat) := h.cf

theorem CompareFlags.aboveEqual : condAboveEqual f = decide (b.toNat ≤ a.toNat) := by
  rw [condAboveEqual, ← condBelow, h.below, ← decide_not, decide_eq_decide, Nat.not_lt]

/-- Below or equal: a borrow, or the zero that equal operands leave. -/
theorem CompareFlags.belowEqual : condBelowEqual f = decide (a.toNat ≤ b.toNat) := by
  rw [condBelowEqual, ← condBelow, h.below, h.zf_eq, ← Bool.decide_or, decide_eq_decide, BitVec.toNat_eq,
    Nat.le_iff_lt_or_eq]

theorem CompareFlags.above : condAbove f = decide (b.toNat < a.toNat) := by
  rw [condAbove_eq_not_condBelowEqual, h.belowEqual, ← decide_not, decide_eq_decide, Nat.not_le]

end

/-! ## The jumps right after CMP -/

theorem exec_cmp (o : Operands) (s : State) : exec (.cmp o) s = execCmp o s := rfl

theorem exec_cmp_dstSrc (d : RegId) (src : Src) (s : State) :
    exec (.cmp (dstSrc d src)) s = .next (commitAluFlags (aluCmp (getReg d s.regs) (srcVal src s.regs)) s) := by
  rw [exec_cmp, execCmp, takeDstSrc_dstSrc, withChecked_ok, alu]

theorem compareFlags_aluCmp (a b : Word) (f : FlagBits) : CompareFlags a b (commitFlags (aluCmp a b).fl f) :=
  ⟨⟨rfl, rfl, rfl⟩, rfl⟩

/-- R29: CMP does not write PF. -/
theorem commitFlags_aluCmp_pf (a b : Word) (f : FlagBits) : (commitFlags (aluCmp a b).fl f).pf = f.pf := rfl

/-- Settles O34: each jump reads its relation from the flags CMP leaves, and the parity jumps the PF it keeps. -/
theorem afterCompareEachJumpDecidesItsRelation : Obligations.AfterCompareEachJumpDecidesItsRelation := by
  intro d src tgt s a b
  have hflags : CompareFlags a b (commitFlags (aluCmp a b).fl s.flags) := compareFlags_aluCmp a b s.flags
  have hparity : condParity (commitFlags (aluCmp a b).fl s.flags) = s.flags.pf := commitFlags_aluCmp_pf a b s.flags
  have hnoParity : condNoParity (commitFlags (aluCmp a b).fl s.flags) = !s.flags.pf := congrArg (!·) hparity
  refine ⟨_, exec_cmp_dstSrc d src s, ?je, ?jz, ?jne, ?jnz, ?ja, ?jnbe, ?jae, ?jnb, ?jnc, ?jb, ?jnae, ?jc, ?jbe, ?jna,
    ?jg, ?jnle, ?jge, ?jnl, ?jl, ?jnge, ?jle, ?jng, ?jo, ?jno, ?js, ?jns, ?jp, ?jpe, ?jnp, ?jpo⟩
  case je | jz => exact takenExactly_of_jumpIf hflags.equal (fun _ => rfl) tgt
  case jne | jnz => exact takenExactly_of_jumpIf hflags.notEqual (fun _ => rfl) tgt
  case ja | jnbe => exact takenExactly_of_jumpIf hflags.above (fun _ => rfl) tgt
  case jae | jnb | jnc => exact takenExactly_of_jumpIf hflags.aboveEqual (fun _ => rfl) tgt
  case jb | jnae | jc => exact takenExactly_of_jumpIf hflags.below (fun _ => rfl) tgt
  case jbe | jna => exact takenExactly_of_jumpIf hflags.belowEqual (fun _ => rfl) tgt
  case jg | jnle => exact takenExactly_of_jumpIf hflags.greater (fun _ => rfl) tgt
  case jge | jnl => exact takenExactly_of_jumpIf hflags.greaterEqual (fun _ => rfl) tgt
  case jl | jnge => exact takenExactly_of_jumpIf hflags.less (fun _ => rfl) tgt
  case jle | jng => exact takenExactly_of_jumpIf hflags.lessEqual (fun _ => rfl) tgt
  case jo => exact takenExactly_of_jumpIf hflags.overflow (fun _ => rfl) tgt
  case jno => exact takenExactly_of_jumpIf hflags.noOverflow (fun _ => rfl) tgt
  case js => exact takenExactly_of_jumpIf hflags.sign (fun _ => rfl) tgt
  case jns => exact takenExactly_of_jumpIf hflags.noSign (fun _ => rfl) tgt
  case jp | jpe => exact takenExactly_of_jumpIf hparity (fun _ => rfl) tgt
  case jnp | jpo => exact takenExactly_of_jumpIf hnoParity (fun _ => rfl) tgt

end Sys2Proof.Machine
end

section
/-! PROOFS. The compare family: CMP itself. What the jumps read right after it stands with the family of the jumps. -/

namespace Sys2Proof.Machine

/-- R260, R111: the flags CMP leaves are SUB's but for the carry, which is the conventional borrow. -/
theorem commitFlags_aluCmp (a b : Word) (f : FlagBits) :
    commitFlags (aluCmp a b).fl f = { f with
      cf := decide (a.toNat < b.toNat)
      of := decide (a.getLsbD 31 ≠ b.getLsbD 31 ∧ (a - b).getLsbD 31 ≠ a.getLsbD 31)
      zf := decide (a - b = 0)
      sf := (a - b).getLsbD 31 } := by
  obtain ⟨-, -, hof, -⟩ := addAndSubtractFlagsDetectOverflow a b
  rw [aluCmp, commitFlags_arithmetic, cmpCf, hof, zfOf_eq_decide, sfOf]

/-- Settles O33: the flags are those of the difference of words, which is the narrowed exact one, and only they are committed. -/
theorem cmpSetsTheFlagsOfTheDifference : Obligations.CmpSetsTheFlagsOfTheDifference := by
  refine ⟨hasOpcode_of_decodeOpcode fun _ => rfl, checksFirst_of_signatureOf (fun _ => rfl) fun _ => rfl,
    fun d src s => ?_⟩
  dsimp only
  rw [exec_cmp_dstSrc, commitAluFlags, commitFlags_aluCmp, ofInt_sub_toNat]

end Sys2Proof.Machine
end

section
/-! PROOFS. The interrupt family: INT's dispatch of the registered handlers, one rule for each way a handler can answer, and NOP. -/

namespace Sys2Proof.Machine

/-! ## A response's writes (R294) -/

/-- R294: the writes up to the first unresolved code are made, and no later one. -/
theorem applyWrites_of_unresolved {done : List (Word × Word)} {g g' : RegBank} {code : Word}
    (hdone : WritesGive done g g') (hcode : resolveCode code = none) (v : Word) (more : List (Word × Word)) :
    applyWrites (done ++ (code, v) :: more) g = (g', some code) := by
  induction done generalizing g with
  | nil =>
    cases hdone
    simp [applyWrites, hcode]
  | cons w rest ih =>
    obtain ⟨id, hid, hrest⟩ := hdone
    simp [applyWrites, hid, ih hrest]

/-! ## One handler of the dispatch, by its answer (R297) -/

section
variable {id : Word} {e : Registration} {rest : List Registration} {j : Nat} {s : State} {r : HandlerResponse}
  {g : RegBank}

/-- R299: the handlers after one that never returns are not called. -/
theorem dispatchHandlers_of_neverReturns (hanswer : handlerAnswer s.handlers e.handle ⟨id, s.regs⟩ = .neverReturns) :
    dispatchHandlers id (e :: rest) j s = .fault (.handlerNeverReturns j) := by
  simp only [dispatchHandlers, hanswer]

theorem dispatchHandlers_of_failed (hanswer : handlerAnswer s.handlers e.handle ⟨id, s.regs⟩ = .returns r)
    (hwrites : WritesGive r.writes s.regs g) (hfailed : r.failed = true) :
    dispatchHandlers id (e :: rest) j s = .next (raiseError .handlerFault (.handler j) { s with regs := g }) := by
  simp only [dispatchHandlers, hanswer, (applyWrites_done_iff _ _ _).mpr hwrites, hfailed, if_true]

theorem dispatchHandlers_of_unresolved {done more : List (Word × Word)} {code v : Word}
    (hanswer : handlerAnswer s.handlers e.handle ⟨id, s.regs⟩ = .returns r)
    (hwrites : r.writes = done ++ (code, v) :: more) (hdone : WritesGive done s.regs g)
    (hcode : resolveCode code = none) :
    dispatchHandlers id (e :: rest) j s =
      .next (raiseError .registerError (.handlerWrite j code) { s with regs := g }) := by
  simp only [dispatchHandlers, hanswer, hwrites, applyWrites_of_unresolved hdone hcode]

theorem dispatchHandlers_of_returns (hanswer : handlerAnswer s.handlers e.handle ⟨id, s.regs⟩ = .returns r)
    (hwrites : WritesGive r.writes s.regs g) (hfailed : r.failed = false) :
    dispatchHandlers id (e :: rest) j s = dispatchHandlers id rest (j + 1) { s with regs := g } := by
  simp only [dispatchHandlers, hanswer, (applyWrites_done_iff _ _ _).mpr hwrites, hfailed, Bool.false_eq_true, if_false]

end

/-- R293, R297: after handlers that all return, the dispatch goes on with the rest of the snapshot and with their writes. -/
theorem dispatchHandlers_append {id : Word} {before : List Registration} {j : Nat} {s : State} {g : RegBank}
    (h : HandlersGive s.handlers id before s.regs g) (rest : List Registration) :
    dispatchHandlers id (before ++ rest) j s = dispatchHandlers id rest (j + before.length) { s with regs := g } := by
  induction before generalizing j s with
  | nil => cases h; rfl
  | cons e before ih =>
    obtain ⟨r, g1, hanswer, hfailed, hwrites, hbefore⟩ := h
    have hrest := ih (j := j + 1) (s := { s with regs := g1 }) hbefore
    rw [List.cons_append, dispatchHandlers_of_returns hanswer hwrites hfailed, hrest, List.length_cons,
      Nat.add_assoc, Nat.add_comm 1]

/-! ## INT (R265, R291) -/

theorem exec_int (o : Operands) (s : State) : exec (.int o) s = execInt o s := rfl

/-- R265: on an immediate, INT notifies the handlers. -/
theorem exec_int_imm (id : Word) (s : State) : exec (.int (.one (.imm id))) s = notifyHandlers id s := rfl

/-- R78: an immediate alone passes INT's checks. -/
theorem takeImm_eq_ok {o : Operands} {id : Word} (h : takeImm o = .ok id) : o = .one (.imm id) := by
  unfold takeImm at h
  split at h
  all_goals cases h
  rfl

theorem exec_int_of_bound {id : Word} {s : State} (hbound : ∃ x ∈ s.registry, id ∈ x.binds) :
    exec (.int (.one (.imm id))) s = dispatchHandlers id s.registry 0 s := by
  rw [exec_int_imm, notifyHandlers, if_pos ((isBound_iff id s.registry).mpr hbound)]

theorem exec_int_of_unbound {id : Word} {s : State} (hunbound : ∀ x ∈ s.registry, id ∉ x.binds) :
    exec (.int (.one (.imm id))) s = .next (raiseError .unhandledInterrupt (.interrupt id) s) := by
  have hnone : ¬ isBound id s.registry = true := by simpa [isBound_iff] using hunbound
  rw [exec_int_imm, notifyHandlers, if_neg hnone]

/-- R297: INT comes to the handler after those that return, at its position of the snapshot. -/
theorem exec_int_after {id : Word} {s : State} {before after : List Registration} {g : RegBank}
    (hregistry : s.registry = before ++ after) (hbound : ∃ x ∈ s.registry, id ∈ x.binds)
    (hbefore : HandlersGive s.handlers id before s.regs g) :
    exec (.int (.one (.imm id))) s = dispatchHandlers id after before.length { s with regs := g } := by
  rw [exec_int_of_bound hbound, ← Nat.zero_add before.length, ← dispatchHandlers_append hbefore after, ← hregistry]

/-- Settles O41: the dispatch goes through the whole registry, and nothing is left of it to call. -/
theorem intCallsEveryHandlerAndCompletes : Obligations.IntCallsEveryHandlerAndCompletes := by
  refine ⟨hasOpcode_of_decodeOpcode fun _ => rfl, checksFirst_of_signatureOf (fun _ => rfl) fun _ => rfl,
    fun id s g hbound hall => ?_⟩
  rw [exec_int_after (List.append_nil s.registry).symm hbound hall, dispatchHandlers]

/-- Settles O42: the bound check comes before the dispatch. -/
theorem intWithoutABoundHandlerRaises : Obligations.IntWithoutABoundHandlerRaises := by
  intro id s hunbound
  rw [exec_int_of_unbound hunbound, raiseError]

/-- Settles O43: INT comes to the handler in question, whose answer decides. -/
theorem intStopsAtTheFirstFailingHandler : Obligations.IntStopsAtTheFirstFailingHandler := by
  intro id s before after e g g1 r hregistry hbound hbefore
  rw [exec_int_after hregistry hbound hbefore]
  refine ⟨fun hanswer hwrites hfailed => ?failed, fun done more code v hanswer hwrites hdone hcode => ?unresolved,
    fun hanswer => ?neverReturns⟩
  case failed => rw [dispatchHandlers_of_failed hanswer hwrites hfailed, raiseError]
  case unresolved => rw [dispatchHandlers_of_unresolved hanswer hwrites hdone hcode, raiseError]
  case neverReturns => exact dispatchHandlers_of_neverReturns hanswer

/-- Settles O44: by whether INT's checks fail, and then by whether its notification ends in an error. -/
theorem intChangesOnlyTheRegistersAndTheOutcome : Obligations.IntChangesOnlyTheRegistersAndTheOutcome := by
  intro o s t h
  obtain ⟨id, -, h⟩ | ⟨e, -, h⟩ := withChecked_cases ((exec_int o s).symm.trans h)
  · obtain ⟨g, rfl | ⟨k, d, rfl⟩⟩ := notifyHandlers_next h
    · rfl
    · rfl
  · obtain ⟨k, d, hraise⟩ := raiseOperandError_eq e s
    cases h
    rw [hraise]
    rfl

/-! ## NOP (R266) -/

/-- Settles O45: the number and the checks by the tables, and NOP's rule gives back the state. -/
theorem nopHasNoEffect : Obligations.NopHasNoEffect :=
  ⟨hasOpcode_of_decodeOpcode fun _ => rfl, checksFirst_of_signatureOf (fun _ => rfl) fun _ => rfl, fun _ => rfl⟩

end Sys2Proof.Machine
end

section
/-! PROOFS. The exception family: where an instruction's error comes from and what it leaves, what stops the machine, and the
host's calls that only touch the registry or the reply. -/

namespace Sys2Proof.Machine

/-! ## The errors of an instruction's own data (R284, R285) -/

/-- The parts of the state that an error other than INT's own can depend on. -/
structure SameData (s s' : State) : Prop where
  regs : s'.regs = s.regs
  stack : s'.stack = s.stack
  params : s'.params = s.params

/-- Where the rule ends a drain, it does so in an error that has changed nothing before it, and that it raises wherever the
registers, the stack and the capacities are the same. -/
def ErrorsAreOwn (rule : State → Result) : Prop :=
  ∀ s t, s.mode = .draining → rule s = .next t → t.mode = .idle →
    ∃ k d, t = raiseError k d s ∧ ∀ s', SameData s s' → rule s' = .next (raiseError k d s')

/-- A rule that raises one error, where a condition on the data holds, and elsewhere goes on with the drain. -/
theorem ErrorsAreOwn.of_condition {rule : State → Result} (p : State → Prop) {k : ErrorKind} {d : ErrorDetail}
    (hraises : ∀ s, p s → rule s = .next (raiseError k d s))
    (hcompletes : ∀ s t, ¬ p s → rule s = .next t → t.mode = s.mode)
    (hdata : ∀ s s', SameData s s' → p s → p s') : ErrorsAreOwn rule := by
  intro s t hmode hrule hidle
  by_cases hp : p s
  · have ht : t = raiseError k d s := by simpa [hraises s hp, eq_comm] using hrule
    exact ⟨k, d, ht, fun s' hsame => hraises s' (hdata s s' hsame hp)⟩
  · exact nomatch hmode.symm.trans ((hcompletes s t hp hrule).symm.trans hidle)

theorem ErrorsAreOwn.of_completes {rule : State → Result} (h : ∀ s t, rule s = .next t → t.mode = s.mode) :
    ErrorsAreOwn rule :=
  fun s t hmode hrule hidle => nomatch hmode.symm.trans ((h s t hrule).symm.trans hidle)

theorem ErrorsAreOwn.of_raises (k : ErrorKind) (d : ErrorDetail) : ErrorsAreOwn fun s => .next (raiseError k d s) :=
  .of_condition (fun _ => True) (fun _ _ => rfl) (fun _ _ h => absurd trivial h) (fun _ _ _ => id)

/-- R105: the checks read the word alone, so a failed one is raised in every state. -/
theorem ErrorsAreOwn.withChecked {α : Type} {c : Except OperandError α} {rule : α → State → Result}
    (h : ∀ a, c = .ok a → ErrorsAreOwn (rule a)) : ErrorsAreOwn fun s => withChecked c s fun a => rule a s := by
  cases c with
  | ok a => exact h a rfl
  | error e => cases e <;> exact .of_raises _ _

theorem shiftDstSrc_mode (op : AluOp) (d : RegId) (src : Src) (s : State) : (shiftDstSrc op d src s).mode = s.mode := by
  unfold shiftDstSrc
  split <;> rfl

/-- R223: only the checks of a conditional jump raise. -/
theorem ErrorsAreOwn.jumpIf (cond : State → Bool) (o : Operands) : ErrorsAreOwn fun s => jumpIf (cond s) o s := by
  refine .withChecked fun src _ => .of_completes fun s t h => ?_
  cases h
  cases cond s <;> rfl

/-- D21: whether the stack is full depends on its words and its capacity. -/
theorem ErrorsAreOwn.push (v : RegBank → Word) : ErrorsAreOwn fun s => .next (pushWord (v s.regs) s) := by
  refine .of_condition (fun s => stackFull s = true) (k := .stackOverflow) (d := .nothing) (fun s hfull => ?_)
    (fun s t hroom h => ?_) fun s s' hsame hfull => ?_
  · rw [pushWord, if_pos hfull]
  · rw [pushWord, if_neg hroom] at h
    cases h
    rfl
  · rw [← hfull, stackFull, stackFull, hsame.stack, hsame.params]

/-- R61: whether a pop underflows depends on the stack. -/
theorem ErrorsAreOwn.pop {rule : Word → State → Result} (hrule : ∀ v s t, rule v s = .next t → t.mode = s.mode) :
    ErrorsAreOwn fun s => popWord s rule := by
  refine .of_condition (fun s => s.stack = []) (fun s hempty => stackTop_nil hempty _) (fun s t hstack h => ?_)
    fun s s' hsame hempty => hsame.stack.trans hempty
  obtain ⟨hempty, -⟩ | ⟨v, rest, -, h⟩ := popWord_cases h
  · exact absurd hempty hstack
  · exact (hrule v _ t h :)

/-- R153: whether a division is by zero depends on the divisor, which is read from the registers. -/
theorem ErrorsAreOwn.div (o : Operands) : ErrorsAreOwn (exec (.div o)) := by
  refine .withChecked (c := takeSrc o) fun src _ => ?_
  refine .of_condition (fun s => srcVal src s.regs = 0) (k := .arithmeticError) (d := .nothing) (fun s hzero => ?_)
    (fun s t hdivisor h => ?_) fun s s' hsame hzero => by rw [hsame.regs, hzero]
  · simp [alu, aluDiv, hzero]
  · simp only [alu, aluDiv, beq_iff_eq, if_neg hdivisor] at h
    cases h
    rfl

/-- R285: every instruction but an INT whose checks pass raises only such errors. -/
theorem exec_errorsAreOwn {i : Instr} (hint : ∀ id, i ≠ .int (.one (.imm id))) : ErrorsAreOwn (exec i) := by
  cases i
  case mov | add | sub | and | or | xor | cmp =>
    exact .withChecked (c := takeDstSrc _) fun _ _ => .of_completes fun s t h => by cases h; rfl
  case sal | shl | sar | shr =>
    exact .withChecked (c := takeDstSrc _) fun _ _ => .of_completes fun s t h => by cases h; exact shiftDstSrc_mode _ _ _ s
  case inc | dec | not =>
    exact .withChecked (c := takeDst _) fun _ _ => .of_completes fun s t h => by cases h; rfl
  case mul | jmp => exact .withChecked (c := takeSrc _) fun _ _ => .of_completes fun s t h => by cases h; rfl
  case nop => exact .withChecked (c := takeNone _) fun _ _ => .of_completes fun s t h => by cases h; rfl
  case div o => exact .div o
  case push => exact .withChecked (c := takeSrc _) fun src _ => .push (srcVal src)
  case pop => exact .withChecked (c := takeDst _) fun d _ => .pop fun v s t h => by cases h; rfl
  case int o =>
    exact .withChecked (c := takeImm o) fun id hid => absurd (congrArg Instr.int (takeImm_eq_ok hid)) (hint id)
  case invalid opc => exact .of_raises .decodeAmbiguity (.opcode opc)
  all_goals exact .jumpIf (fun s => _) _

/-! ## The errors of an INT whose checks pass (R291, R294, R296) -/

/-- Where INT on an immediate ends a drain, no handler binds the id, or a handler ends the dispatch. -/
theorem exec_int_error {id : Word} {s t : State} (hmode : s.mode = .draining)
    (h : exec (.int (.one (.imm id))) s = .next t) (hidle : t.mode = .idle) :
    (¬ (∃ x ∈ s.registry, id ∈ x.binds) ∧ t = raiseError .unhandledInterrupt (.interrupt id) s) ∨
    ((∃ x ∈ s.registry, id ∈ x.binds) ∧ ∃ g k d, HandlersStop s.handlers id s.registry 0 s.regs g k d ∧
      t = raiseError k d { s with regs := g }) := by
  obtain ⟨hbound, h⟩ | ⟨hunbound, h⟩ := notifyHandlers_cases h
  · obtain ⟨g, -, h⟩ | ⟨g, k, d, hstop, h⟩ | ⟨_, _, _, _, -, -, -, h⟩ := dispatchHandlers_cases h
    · cases h
      exact nomatch hmode.symm.trans hidle
    · cases h
      exact .inr ⟨hbound, g, k, d, hstop, rfl⟩
    · cases h
  · cases h
    exact .inl ⟨hunbound, rfl⟩

/-- R280, R281: the kind or the detail shows that a handler caused the error. -/
theorem HandlersStop.kind_or_detail {table : List HandlerRule} {id : Word} {l : List Registration} {j : Nat}
    {g g' : RegBank} {k : ErrorKind} {d : ErrorDetail} (h : HandlersStop table id l j g g' k d) :
    k = .handlerFault ∨ ∃ position code, d = .handlerWrite position code := by
  obtain ⟨_, _, _, _, _, -, -, -, ⟨-, -, hkind, -⟩ | ⟨_, code, _, _, -, -, -, -, hdetail⟩⟩ := h
  · exact .inl hkind
  · exact .inr ⟨_, code, hdetail⟩

/-- Settles O13, by whether the instruction is an INT whose checks pass, and then by whether a handler binds its id. -/
theorem anErrorCommitsNothingButHandlerWrites : Obligations.AnErrorCommitsNothingButHandlerWrites := by
  intro i s t hmode hexec hidle
  by_cases hint : ∃ id, i = .int (.one (.imm id))
  · obtain ⟨id, rfl⟩ := hint
    obtain ⟨hunbound, rfl⟩ | ⟨hbound, g, k, d, hstop, rfl⟩ := exec_int_error hmode hexec hidle
    · exact ⟨_, _, rfl, fun _ => rfl, fun _ hi hbound => by cases hi; exact absurd hbound hunbound⟩
    · obtain ⟨x, hx, hbinds⟩ := hbound
      exact ⟨k, d, rfl, fun hunbound => absurd hbinds (hunbound id rfl x hx), fun _ hi _ => by cases hi; exact hstop⟩
  · have hint : ∀ id, i ≠ .int (.one (.imm id)) := not_exists.mp hint
    obtain ⟨k, d, rfl, -⟩ := exec_errorsAreOwn hint s t hmode hexec hidle
    exact ⟨k, d, rfl, fun _ => rfl, fun id hi => absurd hi (hint id)⟩

/-! ## What stops the machine (R280, R299) -/

/-- The instruction is an INT that calls the handler at position `j` of the registry, which never returns. -/
def StuckInHandler (i : Instr) (s : State) (j : Nat) : Prop :=
  ∃ id e g, i = .int (.one (.imm id)) ∧ (∃ x ∈ s.registry, id ∈ x.binds) ∧ s.registry[j]? = some e ∧
    HandlersGive s.handlers id (s.registry.take j) s.regs g ∧ handlerAnswer s.handlers e.handle ⟨id, g⟩ = .neverReturns

theorem withChecked_next {α : Type} {c : Except OperandError α} {s : State} {rule : α → Result}
    (hrule : ∀ a, ∃ t, rule a = .next t) : ∃ t, withChecked c s rule = .next t := by
  cases c with
  | ok a => exact hrule a
  | error e => exact ⟨_, rfl⟩

theorem popWord_next {s : State} {rule : Word → State → Result} (hrule : ∀ v s, ∃ t, rule v s = .next t) :
    ∃ t, popWord s rule = .next t := by
  obtain ⟨-, h⟩ | ⟨v, rest, -, h⟩ := popWord_cases (s := s) (rule := rule) rfl
  · exact ⟨_, h⟩
  · exact h ▸ hrule v _

/-- A notification answers a next state unless a called handler never returns. -/
theorem exec_int_imm_next_or_stuck (id : Word) (s : State) :
    (∃ t, exec (.int (.one (.imm id))) s = .next t) ∨
    ∃ j, StuckInHandler (.int (.one (.imm id))) s j ∧
      exec (.int (.one (.imm id))) s = .fault (.handlerNeverReturns j) := by
  rw [exec_int_imm]
  obtain ⟨hbound, h⟩ | ⟨-, h⟩ := notifyHandlers_cases (id := id) (s := s) rfl
  · rw [← h]
    obtain ⟨g, -, h⟩ | ⟨g, k, d, -, h⟩ | ⟨before, e, after, g, hregistry, hbefore, hanswer, h⟩ :=
      dispatchHandlers_cases (id := id) (l := s.registry) (j := 0) (s := s) rfl
    · exact .inl ⟨_, h⟩
    · exact .inl ⟨_, h⟩
    · refine .inr ⟨before.length, ⟨id, e, g, rfl, hbound, ?_, ?_, hanswer⟩, by rw [h, Nat.zero_add]⟩
      · simp [hregistry]
      · simpa [hregistry] using hbefore
  · exact .inl ⟨_, h⟩

/-- R284, R299: an error is a next state, so only a handler that never returns stops an instruction. -/
theorem exec_next_or_stuck (i : Instr) (s : State) :
    (∃ t, exec i s = .next t) ∨ ∃ j, StuckInHandler i s j ∧ exec i s = .fault (.handlerNeverReturns j) := by
  cases i
  case int o =>
    cases ho : takeImm o with
    | error e => exact .inl ⟨_, withChecked_of_error ho s _⟩
    | ok id =>
      rw [takeImm_eq_ok ho]
      exact exec_int_imm_next_or_stuck id s
  case div =>
    refine .inl (withChecked_next fun src => ?_)
    dsimp only
    split <;> exact ⟨_, rfl⟩
  case pop => exact .inl (withChecked_next fun d => popWord_next fun _ _ => ⟨_, rfl⟩)
  case invalid => exact .inl ⟨_, rfl⟩
  all_goals exact .inl (withChecked_next fun _ => ⟨_, rfl⟩)

theorem coreStep_of_idle {s : State} (hmode : s.mode = .idle) : coreStep s = .next s := by
  simp only [coreStep, hmode]

/-- R101: a move of the core stops where the instruction it runs does. -/
theorem coreStep_next_or_stuck (s : State) :
    (∃ t, coreStep s = .next t) ∨
    ∃ d j, s.mode = .draining ∧ fetchWord s = some d ∧ StuckInHandler (decode d) s j ∧
      coreStep s = .fault (.handlerNeverReturns j) := by
  cases hmode : s.mode with
  | idle => exact .inl ⟨s, coreStep_of_idle hmode⟩
  | draining =>
    cases hfetch : fetchWord s with
    | none => exact .inl ⟨_, coreStep_of_noWord hmode hfetch⟩
    | some d =>
      rw [coreStep_of_word hmode hfetch]
      obtain ⟨t, hexec⟩ | ⟨j, hstuck, hexec⟩ := exec_next_or_stuck (decode d) (clearTaken s)
      · exact .inl ⟨_, runWord_of_next hexec⟩
      · exact .inr ⟨d, j, rfl, rfl, hstuck, runWord_of_fault hexec⟩

/-- Only a move of the core can stop the machine; the host's turns always answer a next state. -/
theorem step_next_or_stuck (s : State) :
    (∃ t, step s = .next t) ∨
    ∃ d j, CoreMoves s ∧ s.mode = .draining ∧ fetchWord s = some d ∧ StuckInHandler (decode d) s j ∧
      step s = .fault (.handlerNeverReturns j) := by
  by_cases hcore : CoreMoves s
  · rw [step_of_coreMoves hcore]
    obtain hnext | ⟨d, j, hmode, hfetch, hstuck, hfault⟩ := coreStep_next_or_stuck { s with turns := s.turns.tail }
    · exact .inl hnext
    · exact .inr ⟨d, j, hcore, hmode, hfetch, hstuck, hfault⟩
  · rcases hturns : s.turns with _ | ⟨_ | c | answers, rest⟩
    · exact absurd (.inl hturns) hcore
    · exact absurd (.inr ⟨rest, hturns⟩) hcore
    · exact .inl ⟨_, step_call hturns⟩
    · exact .inl ⟨_, step_handlersBecome hturns⟩

/-- Settles O57: a step answers a next state or is stuck in a handler. -/
theorem onlyANeverReturningHandlerStopsTheMachine : Obligations.OnlyANeverReturningHandlerStopsTheMachine := by
  refine ⟨fun s r hrefused => ?_, fun s f hfault => ?_⟩
  · obtain ⟨t, hnext⟩ | ⟨d, j, -, -, -, -, hstuck⟩ := step_next_or_stuck s
    · exact nomatch hrefused.symm.trans hnext
    · exact nomatch hrefused.symm.trans hstuck
  · obtain ⟨t, hnext⟩ | ⟨d, j, hcore, hmode, hfetch, ⟨id, e, g, hdecode, hbound, hposition, hbefore, hanswer⟩, hstuck⟩ :=
      step_next_or_stuck s
    · exact nomatch hfault.symm.trans hnext
    · have hf : f = .handlerNeverReturns j := by simpa [hfault] using hstuck
      exact ⟨d, id, j, e, g, hcore, hmode, hfetch, hdecode, hbound, hf, hposition, hbefore, hanswer⟩

/-! ## The idle core, the registry and the diagnostic read (R289, R290, R313, R315) -/

/-- Settles O49: the core's turn is taken off the schedule, and an idle core has nothing to run. -/
theorem anIdleCoreKeepsAllState : Obligations.AnIdleCoreKeepsAllState :=
  fun _ hcore hidle => (step_of_coreMoves hcore).trans (coreStep_of_idle hidle)

theorem registerHandler_of_new {h : Handle} {s : State} (hnew : ∀ e ∈ s.registry, e.handle ≠ h) (binds : List Word) :
    registerHandler h binds s = { s with registry := s.registry ++ [⟨h, binds⟩] } :=
  if_neg (by simpa using hnew)

theorem registerHandler_of_known {h : Handle} {s : State} (hknown : ∃ e ∈ s.registry, e.handle = h)
    (binds : List Word) : registerHandler h binds s = s :=
  if_pos (by simpa using hknown)

/-- R290: exactly the other handles' entries stay. -/
theorem mem_unregisterHandler (h : Handle) (s : State) (e : Registration) :
    e ∈ (unregisterHandler h s).registry ↔ e ∈ s.registry ∧ e.handle ≠ h := by
  simp [unregisterHandler]

theorem unregisterHandler_sublist (h : Handle) (s : State) : (unregisterHandler h s).registry.Sublist s.registry :=
  List.filter_sublist

/-- Settles O52: each call is served in its own turn, whatever the drain status. -/
theorem registrationKeepsOrderAndHandlesDistinct : Obligations.RegistrationKeepsOrderAndHandlesDistinct := by
  intro s h binds rest
  refine ⟨fun hturns => ⟨fun hnew => ?_, fun hknown => ?_⟩, fun hturns => ?_⟩
  · rw [step_call hturns, serveCall, registerHandler_of_new (s := { s with turns := rest }) hnew]
  · rw [step_call hturns, serveCall, registerHandler_of_known (s := { s with turns := rest }) hknown]
  · exact ⟨_, step_call hturns, unregisterHandler_sublist h _, mem_unregisterHandler h _⟩

/-- Settles O53, by the drain status. -/
theorem diagnosticReadsChangeNothing : Obligations.DiagnosticReadsChangeNothing := by
  intro s rest hturns
  rw [step_call hturns, serveCall, readDiagnostics]
  refine ⟨fun hidle => ⟨diagnosticView s, ?_, rfl, rfl, rfl, rfl, rfl, rfl, rfl, rfl, rfl⟩, fun hdraining => ?_⟩
  · rw [hidle]
    rfl
  · rw [hdraining]
    rfl

end Sys2Proof.Machine
end

section
/-! PROOFS. The hazard family: the next request after an error, and after a jump beyond the end of the store. -/

namespace Sys2Proof.Machine

/-- R100: an accepted request starts a drain with the word at the end of the store. -/
theorem serveCall_execute_accepts (d : Diw) {s : State} (hidle : s.mode = .idle)
    (hroom : ∀ n, s.params.storeCapacity = some n → s.store.length < n) :
    serveCall (.execute d) s = { s with store := s.store ++ [d], mode := .draining } := by
  rw [serveCall, appendAndDrain_accepts d hidle hroom]

theorem step_of_noTurns {s : State} (h : s.turns = []) : step s = coreStep s := by
  simp only [step, machineStep, h]

/-- Settles O54: one more word does not reach a `pc` beyond the end, so the drain it starts ends at once. -/
theorem aForwardJumpBeyondTheEndDefers : Obligations.AForwardJumpBeyondTheEndDefers := by
  intro s d hturns hidle hroom hbeyond
  have hnoWord : (s.store ++ [d])[s.pc.toNat]? = none := List.getElem?_eq_none (by simpa using hbeyond)
  rw [serveCall_execute_accepts d hidle hroom]
  refine (step_of_noTurns ?_).trans (coreStep_of_noWord rfl hnoWord)
  exact hturns

/-! ## An error and the step it ends (R284) -/

/-- A drain's step that raises an error: nothing but the outcome and the latch is written. -/
theorem step_of_raises {s : State} {d : Diw} {k : ErrorKind} {detail : ErrorDetail} (hturns : s.turns = [])
    (hmode : s.mode = .draining) (hfetch : fetchWord s = some d)
    (hexec : exec (decode d) (clearTaken s) = .next (raiseError k detail (clearTaken s))) :
    step s = .next (clearTaken (raiseError k detail s)) := by
  rw [step_of_noTurns hturns, coreStep_of_word hmode hfetch, runWord_of_next hexec]
  rfl

/-- A drain's step that ends in an error whose kind and detail are not a handler's or a missing binding's: its word raises
that error from every state with the same data. -/
theorem step_error_own {s t : State} {kind : ErrorKind} {p : Word} {detail : ErrorDetail} (hturns : s.turns = [])
    (hmode : s.mode = .draining) (hstep : step s = .next t) (hidle : t.mode = .idle) (hlast : t.last = .fault kind p)
    (hreply : t.reply = some (.fault kind p detail)) (hbinding : kind ≠ .unhandledInterrupt)
    (hfault : kind ≠ .handlerFault) (hwrite : ∀ j code, detail ≠ .handlerWrite j code) :
    t = clearTaken (raiseError kind detail s) ∧ p = s.pc ∧ ∃ d, fetchWord s = some d ∧
      ∀ s', SameData s s' → exec (decode d) s' = .next (raiseError kind detail s') := by
  rw [step_of_noTurns hturns] at hstep
  obtain ⟨hidle', -⟩ | ⟨-, -, rfl⟩ | ⟨d, u, -, hfetch, hexec, rfl⟩ := coreStep_cases hstep
  · exact nomatch hmode.symm.trans hidle'
  · cases hlast
  rw [finishInstr_mode] at hidle
  rw [finishInstr_last] at hlast
  rw [finishInstr_reply] at hreply
  by_cases hint : ∃ id, decode d = .int (.one (.imm id))
  · obtain ⟨id, hdecode⟩ := hint
    rw [hdecode] at hexec
    obtain ⟨-, rfl⟩ | ⟨-, g, k, e, hstop, rfl⟩ := exec_int_error (s := clearTaken s) hmode hexec hidle
    · cases hlast
      exact absurd rfl hbinding
    · cases hlast
      cases hreply
      obtain hkind | ⟨j, code, hdetail⟩ := hstop.kind_or_detail
      · exact absurd hkind hfault
      · exact absurd hdetail (hwrite j code)
  · obtain ⟨k, e, rfl, hrecurs⟩ := exec_errorsAreOwn (not_exists.mp hint) (clearTaken s) u hmode hexec hidle
    cases hlast
    cases hreply
    exact ⟨rfl, rfl, d, hfetch, fun s' hsame => hrecurs s' ⟨hsame.regs, hsame.stack, hsame.params⟩⟩

/-- Settles O14: the request leaves the word at `pc` and the data it read, so the word raises its error again. -/
theorem anErrorOtherThanFromHandlersRecurs : Obligations.AnErrorOtherThanFromHandlersRecurs := by
  intro s t d kind p detail registry handlers hturns hmode hstep hidle hlast hreply hbinding hfault hwrite hroom
  obtain ⟨rfl, rfl, word, hfetch, hrecurs⟩ :=
    step_error_own hturns hmode hstep hidle hlast hreply hbinding hfault hwrite
  obtain ⟨hpc, -⟩ := List.getElem?_eq_some_iff.mp hfetch
  have hword : (s.store ++ [d])[s.pc.toNat]? = some word := (List.getElem?_append_left hpc).trans hfetch
  rw [serveCall_execute_accepts d ?idle ?room]
  case idle => exact hidle
  case room => exact hroom
  exact ⟨_, step_of_raises hturns rfl hword (hrecurs _ ⟨rfl, rfl, rfl⟩), rfl, rfl, rfl, rfl, rfl, rfl, rfl⟩

end Sys2Proof.Machine
end
